-- ==== Sys2Proof/Word.lean ====
section
/-! DEFINITION. The word types of the block: spec/00_scope.md R8, R11. -/

namespace Sys2Proof

/-- A byte is 8 bits everywhere (spec/20_memory.md R50). -/
abbrev Byte := BitVec 8

/-- A 7-bit node address or function identifier (spec/00_scope.md R11, spec/20_memory.md R64). -/
abbrev Addr := BitVec 7

/-- A length that can reach 256 is 9 bits wide (spec/00_scope.md R8). -/
abbrev Len := BitVec 9

end Sys2Proof
end

