-- ==== Sys2Proof/Syntax.lean ====
section
/-! DEFINITION. The operations of the block as syntax: one constructor of `Instr` per row of
spec/opcode_table.json, with the operands the spec gives the row. -/

namespace Sys2Proof

/-- The eight header fields beside `parameter`: spec/30_encoding.md R71, R74 and the frame register of
spec/10_state.md R30. -/
structure Fields where
  src : Addr
  dst : Addr
  fn : Addr
  rsvId : BitVec 3
  len : BitVec 4
  rsvCtl : BitVec 2
  request : Bool
  extended : Bool
  deriving DecidableEq, Repr, Inhabited

/-- The operands of SEND_PACKET: spec/30_encoding.md R90, spec/41_fragmenter.md R110. -/
structure SendOp where
  fn : Addr
  src : Addr
  dst : Addr
  param : Byte
  length : Len
  payload : List Byte
  deriving DecidableEq, Repr, Inhabited

/-- One transaction on the interface `host_cmd`: the 2-bit command code and every operand port
(spec/00_scope.md R17, spec/30_encoding.md R90). A port that the command does not use is ignored. -/
structure HostCmd where
  cmd : BitVec 2
  txPresent : Bool
  rxPresent : Bool
  fn : Addr
  src : Addr
  dst : Addr
  param : Byte
  length : Len
  payload : List Byte
  localAddress : Addr
  deriving DecidableEq, Repr, Inhabited

/-- The rows of spec/opcode_table.json: the three frame roles and the reserved length class
(format FRAME40), the three host operations and the reserved command code (format HOSTCMD). -/
inductive Instr where
  /-- START (spec/30_encoding.md R78, spec/44_reassembler.md R163). -/
  | startFrame (f : Fields) (payload : List Byte)
  /-- END (spec/30_encoding.md R80, spec/44_reassembler.md R164 to R169). -/
  | endFrame (f : Fields) (payload : List Byte)
  /-- DATA (spec/30_encoding.md R79, spec/44_reassembler.md R170, R171); `seq` is the `parameter` field. -/
  | dataFrame (seq : Byte) (f : Fields) (payload : List Byte)
  /-- A header whose `payload_length` is 9 to 15 (spec/30_encoding.md R84, spec/42_frame_parser.md R134). -/
  | reservedLen (param : Byte) (f : Fields)
  /-- INIT (spec/40_host_operations.md R101). -/
  | init (txPresent rxPresent : Bool)
  /-- SEND_PACKET (spec/41_fragmenter.md R110, R121). -/
  | sendPacket (op : SendOp)
  /-- RECEIVE_ONE_FRAME (spec/44_reassembler.md R160, R161). -/
  | receiveOneFrame (localAddress : Addr)
  /-- The reserved command code 3 (spec/40_host_operations.md R104). -/
  | reservedCmd
  deriving DecidableEq, Repr, Inhabited

end Sys2Proof
end

