-- ==== Sys2Proof/Config.lean ====
section
/-! DEFINITION. What is fixed before reset (spec/00_scope.md section 4) and the free values: what the
checksum unit computes, what the transport answers, what happens next. -/

namespace Sys2Proof

/-- `MAX_PACKET_PAYLOAD`: the largest payload of a packet, the bytes of a slot's buffer (spec/00_scope.md R8). -/
def maxPacketPayload : Nat := 256

/-- `MAX_FRAME_PAYLOAD`: the largest payload of a frame, the chunk size (spec/00_scope.md R9). -/
def maxFramePayload : Nat := 8

/-- `HEADER_BYTES` (spec/00_scope.md R10). -/
def headerBytes : Nat := 5

/-- The default of `SLOT_CAPACITY` (spec/00_scope.md R7). A state may hold any number of slots; this is how many
`State.reset` holds. -/
def slotCapacity : Nat := 2

/-- Which checksum unit is connected to the interface `chk`. The hardware's is `external`, an open parameter
(spec/00_scope.md R12). `tSum` and `tCrc8` are the spec's two test instantiations, labelled there as not the
hardware's: they are here so that its test vectors can be run. -/
inductive ChecksumUnit where
  | external
  | tSum
  | tCrc8
  deriving DecidableEq, Repr, Inhabited

/-- The parameters that are plain data: the sentinels `PARAM_START`, `PARAM_END` (spec/00_scope.md R13), the
flags `TX_REQUEST`, `TX_EXTENDED` (R14) and the checksum unit (R12). -/
structure Params where
  paramStart : Byte
  paramEnd : Byte
  txRequest : Bool
  txExtended : Bool
  checksum : ChecksumUnit
  deriving DecidableEq, Repr, Inhabited

/-- The spec's defaults: the placeholder sentinels of spec/00_scope.md R13, the flags of
spec/30_encoding.md R83, the open checksum.
DESIGN CHOICE (log 4, log 23): the spec's placeholders. unsafe: not wire-compatible with other values. -/
def Params.default : Params where
  paramStart := 0xFE
  paramEnd := 0xFF
  txRequest := false
  txExtended := true
  checksum := .external

/-- The constraints on the sentinels: different, and neither in 0 to 31 (spec/30_encoding.md R85). -/
def Params.legal (p : Params) : Bool :=
  decide (p.paramStart ≠ p.paramEnd) && decide (31 < p.paramStart.toNat) && decide (31 < p.paramEnd.toNat)

/-- The open checksum's step on one byte, accumulator first. Any function with the laws CHK-FOLD and CHK-EMPTY
of spec/00_scope.md R12 is the left fold of its one-byte step. DEDUCED (log 5): free, safe. -/
opaque Config.checksumStep : Byte → Byte → Byte

/-- The open initial accumulator `CHK_INIT` (spec/00_scope.md R12). Free, safe (log 5). -/
opaque Config.chkInit : Byte

/-- What `transmit` answers (spec/20_memory.md R51). After an error any prefix of the bytes may have been sent
(spec/93_implementation_defined.md U7): `sent` is how long that prefix is. -/
inductive TxAnswer where
  | ok
  | error (sent : Nat)
  deriving DecidableEq, Repr, Inhabited

/-- How the transport treats a `receive_exact` call: it serves it from the FIFO, or it fails although enough
bytes may be pending (spec/20_memory.md R52, spec/93_implementation_defined.md U8). -/
inductive RxAnswer where
  | serve
  | fail
  deriving DecidableEq, Repr, Inhabited

/-- One thing that can happen next (spec/00_scope.md R16: the agents and their steps). -/
inductive Event where
  /-- The host issues the next command of its queue. -/
  | host
  /-- The fragmenter takes its next step. -/
  | fragmenter
  /-- The reassembler takes its next step. -/
  | reassembler
  /-- The host decides on one more command, to be issued after those it has queued. -/
  | command (c : HostCmd)
  /-- Bytes reach the receive FIFO (spec/10_state.md R34). -/
  | arrive (bytes : List Byte)
  /-- Another holder takes the lock (spec/93_implementation_defined.md U16). -/
  | lockTaken
  /-- The other holder gives the lock back. -/
  | lockGiven
  /-- The reset event (spec/70_reset_and_hazards.md R210). -/
  | reset
  deriving DecidableEq, Repr, Inhabited

/-- What happens at a step that `State.script` does not settle. Free, safe (log 1). -/
opaque Config.event : Nat → Event

/-- What a `transmit` call answers that `State.txAnswers` does not settle. Free, safe (log 11). -/
opaque Config.transmitAnswer : Nat → TxAnswer

/-- How a `receive_exact` call fares that `State.rxAnswers` does not settle. Free, safe (log 12). -/
opaque Config.receiveAnswer : Nat → RxAnswer

end Sys2Proof
end

