-- ==== Sys2Proof/WellFormed.lean ====
section
/-! DEFINITION. Which terms of `Instr` stand for something the hardware can receive. -/

namespace Sys2Proof

/-- A frame's payload is the declared 0 to 8 bytes (spec/30_encoding.md R70, R84). -/
def payloadFits (f : Fields) (payload : List Byte) : Bool :=
  decide (f.len.toNat ≤ maxFramePayload) && decide (payload.length = f.len.toNat)

/-- The payload operand of SEND_PACKET holds the `length` bytes of spec/00_scope.md R17, where the block reads it. -/
def lengthFits (length : Len) (payload : List Byte) : Bool :=
  decide (maxPacketPayload < length.toNat) || decide (payload.length = length.toNat)

/-- A DATA frame's `parameter` is neither sentinel (spec/30_encoding.md R77); a reserved length is 9 to 15 (R84);
SEND_PACKET brings as many payload bytes as its `length` operand says (spec/00_scope.md R17). A `length` above
256 is well formed whatever the payload operand holds: the 9-bit port can carry it and the block reads no payload
then (spec/40_host_operations.md R104). -/
def Instr.wf (p : Params) : Instr → Bool
  | .startFrame f payload => payloadFits f payload
  | .endFrame f payload => payloadFits f payload
  | .dataFrame seq f payload =>
      payloadFits f payload && decide (seq ≠ p.paramStart) && decide (seq ≠ p.paramEnd)
  | .reservedLen _ f => decide (maxFramePayload < f.len.toNat)
  | .init _ _ => true
  | .sendPacket op => lengthFits op.length op.payload
  | .receiveOneFrame _ => true
  | .reservedCmd => true

end Sys2Proof
end

