-- ==== Sys2Proof/Decode.lean ====
section
/-! DEFINITION. The wire format and the host command port: decoding, then encoding
(spec/30_encoding.md R70 to R90). -/

namespace Sys2Proof

/-- The frame register `fr` (spec/10_state.md R30). -/
structure FrameReg where
  param : Byte
  fields : Fields
  payload : List Byte
  deriving DecidableEq, Repr, Inhabited

/-- The role of a frame (spec/30_encoding.md R77). -/
inductive Role where
  | start
  | finish
  | data
  deriving DecidableEq, Repr, Inhabited

/-- Why a decoding is rejected. -/
inductive DecodeReject where
  /-- Fewer than 5 bytes: no header (spec/42_frame_parser.md R132 case (a)). -/
  | shortHeader
  /-- Fewer payload bytes than the header declares (R132 case (b)). -/
  | shortPayload
  /-- A SEND_PACKET of at most 256 bytes whose payload operand does not hold `length` bytes: no transaction of
  spec/00_scope.md R17. -/
  | payloadCount
  deriving DecidableEq, Repr, Inhabited

/-- `role`: the `parameter` field alone decides, START before END (spec/30_encoding.md R77). -/
def role (p : Params) (param : Byte) : Role :=
  if param = p.paramStart then .start
  else if param = p.paramEnd then .finish
  else .data

/-- The identifier word `ID` of a header, from its first four bytes, least significant byte first
(spec/30_encoding.md R75, R87).
DESIGN CHOICE (log 3): the spec's decision D3. unsafe for wire compatibility. -/
def headerId (h : List Byte) : BitVec 32 :=
  (h.getD 0 0).setWidth 32 ||| (h.getD 1 0).setWidth 32 <<< 8 ||| (h.getD 2 0).setWidth 32 <<< 16 |||
    (h.getD 3 0).setWidth 32 <<< 24

/-- The `parameter` field of a header (spec/30_encoding.md R72, R87). -/
def headerParam (h : List Byte) : Byte := (headerId h).extractLsb' 0 8

/-- The other fields of a header (spec/30_encoding.md R72, R74, R87). Total: every 5-byte sequence decodes.
DESIGN CHOICE (log 3): the spec's decisions D4, D5. unsafe for wire compatibility. -/
def headerFields (h : List Byte) : Fields where
  src := (headerId h).extractLsb' 8 7
  dst := (headerId h).extractLsb' 15 7
  fn := (headerId h).extractLsb' 22 7
  rsvId := (headerId h).extractLsb' 29 3
  len := (h.getD 4 0).extractLsb' 0 4
  rsvCtl := (h.getD 4 0).extractLsb' 4 2
  request := (h.getD 4 0).getLsbD 6
  extended := (h.getD 4 0).getLsbD 7

/-- The operation a fetched frame stands for: a reserved length whatever the parameter (decode order 0 of the
table, spec/30_encoding.md R84), else its role (R77). -/
def frameInstr (p : Params) (fr : FrameReg) : Instr :=
  if maxFramePayload < fr.fields.len.toNat then .reservedLen fr.param fr.fields
  else match role p fr.param with
    | .start => .startFrame fr.fields fr.payload
    | .finish => .endFrame fr.fields fr.payload
    | .data => .dataFrame fr.param fr.fields fr.payload

/-- One frame from the head of a byte sequence, and the bytes after it (spec/30_encoding.md R76, R87): 5 header
bytes, then, where the length is legal, that many payload bytes. -/
def decodeFrame (p : Params) (bytes : List Byte) : Except DecodeReject (Instr × List Byte) :=
  if bytes.length < headerBytes then .error .shortHeader
  else
    let f := headerFields (bytes.take headerBytes)
    let param := headerParam (bytes.take headerBytes)
    let rest := bytes.drop headerBytes
    if maxFramePayload < f.len.toNat then .ok (frameInstr p ⟨param, f, []⟩, rest)
    else if rest.length < f.len.toNat then .error .shortPayload
    else .ok (frameInstr p ⟨param, f, rest.take f.len.toNat⟩, rest.drop f.len.toNat)

/-- The operands of SEND_PACKET on the command port (spec/30_encoding.md R90). -/
def HostCmd.sendOp (c : HostCmd) : SendOp := ⟨c.fn, c.src, c.dst, c.param, c.length, c.payload⟩

/-- A host command by its code (spec/30_encoding.md R90, decision D13). -/
def decodeCommand (c : HostCmd) : Except DecodeReject Instr :=
  match c.cmd.toNat with
  | 0 => .ok (.init c.txPresent c.rxPresent)
  | 1 => if lengthFits c.length c.payload then .ok (.sendPacket c.sendOp) else .error .payloadCount
  | 2 => .ok (.receiveOneFrame c.localAddress)
  | _ => .ok .reservedCmd

/-- What an operation is read from: the bytes of a frame, or a transaction on the command port. -/
inductive Encoded where
  | frame (bytes : List Byte)
  | command (c : HostCmd)
  deriving DecidableEq, Repr, Inhabited

/-- Decoding, total; bytes after a whole frame are the next frame's and are dropped here. -/
def decode (p : Params) : Encoded → Except DecodeReject Instr
  | .frame bytes => (decodeFrame p bytes).map Prod.fst
  | .command c => decodeCommand c

/-- The identifier word `ID` of a frame (spec/30_encoding.md R72, R86; the fields share no bit, so the sum of R86
is the or). -/
def identifierWord (param : Byte) (f : Fields) : BitVec 32 :=
  param.setWidth 32 ||| f.src.setWidth 32 <<< 8 ||| f.dst.setWidth 32 <<< 15 ||| f.fn.setWidth 32 <<< 22 |||
    f.rsvId.setWidth 32 <<< 29

/-- The control byte `CTL` of a frame (spec/30_encoding.md R74, R86). -/
def controlByte (f : Fields) : Byte :=
  f.len.setWidth 8 ||| f.rsvCtl.setWidth 8 <<< 4 ||| (BitVec.ofBool f.request).setWidth 8 <<< 6 |||
    (BitVec.ofBool f.extended).setWidth 8 <<< 7

/-- The 5 header bytes of a frame (spec/30_encoding.md R75, R86). -/
def encodeHeader (param : Byte) (f : Fields) : List Byte :=
  let id := identifierWord param f
  [id.extractLsb' 0 8, id.extractLsb' 8 8, id.extractLsb' 16 8, id.extractLsb' 24 8, controlByte f]

/-- The header fields the fragmenter sends with `n` payload bytes: reserved bits 0, the two flags as
configured (spec/30_encoding.md R82, R83, R86). -/
def txFields (p : Params) (src dst fn : Addr) (n : Nat) : Fields where
  src := src
  dst := dst
  fn := fn
  rsvId := 0
  len := BitVec.ofNat 4 n
  rsvCtl := 0
  request := p.txRequest
  extended := p.txExtended

/-- `encode_frame` (spec/30_encoding.md R86). -/
def encodeFrame (p : Params) (param : Byte) (src dst fn : Addr) (payload : List Byte) : List Byte :=
  encodeHeader param (txFields p src dst fn payload.length) ++ payload

/-- A command port with every operand 0 but the code. -/
def HostCmd.blank (code : BitVec 2) : HostCmd := ⟨code, false, false, 0, 0, 0, 0, 0, [], 0⟩

/-- The encoding of an operation: the bytes of a frame on the wire, or the command port. -/
def encode (p : Params) : Instr → Encoded
  | .startFrame f payload => .frame (encodeHeader p.paramStart f ++ payload)
  | .endFrame f payload => .frame (encodeHeader p.paramEnd f ++ payload)
  | .dataFrame seq f payload => .frame (encodeHeader seq f ++ payload)
  | .reservedLen param f => .frame (encodeHeader param f)
  | .init tx rx => .command { HostCmd.blank 0 with txPresent := tx, rxPresent := rx }
  | .sendPacket op => .command { HostCmd.blank 1 with
      fn := op.fn, src := op.src, dst := op.dst, param := op.param, length := op.length, payload := op.payload }
  | .receiveOneFrame a => .command { HostCmd.blank 2 with localAddress := a }
  | .reservedCmd => .command (HostCmd.blank 3)

/-- The bytes of a 40-bit header value, first byte on the wire first (`V` in spec/opcode_table.json's notes). -/
def tableHeader (w : Nat) : List Byte :=
  [BitVec.ofNat 8 w, BitVec.ofNat 8 (w / 2 ^ 8), BitVec.ofNat 8 (w / 2 ^ 16), BitVec.ofNat 8 (w / 2 ^ 24),
    BitVec.ofNat 8 (w / 2 ^ 32)]

/-- What a table word stands for: 40 bits are a header followed by payload bytes of zeros (as many as any frame
can have); 8 bits or fewer are the command code with every operand 0 (log 20). -/
def tableEncoded (nbits w : Nat) : Option Encoded :=
  if nbits = 40 then some (.frame (tableHeader w ++ List.replicate maxFramePayload 0))
  else if nbits ≤ 8 then some (.command (HostCmd.blank (BitVec.ofNat 2 w)))
  else none

/-- The operation the decoder reads from a row's word, under the default parameters. -/
def decodeTableWord (nbits w : Nat) : Option Instr :=
  match tableEncoded nbits w with
  | none => none
  | some e => match decode .default e with
    | .ok i => some i
    | .error _ => none

end Sys2Proof
end

