-- ==== Sys2Proof/Machine/State.lean ====
section
/-! DEFINITION. The state of the block and of the world a run needs (spec/10_state.md), as plain data, and its
value after reset. -/

namespace Sys2Proof.Machine

/-- The bytes of one slot's buffer that something has written, as (offset, byte) pairs with offsets strictly
rising. An offset that is not listed has no value (spec/10_state.md R26, R40; log 8). -/
abbrev Memory := List Host.Cell

/-- The explicit tag of a slot: `Assembling` is `in_progress = 1` (spec/10_state.md R22, R28). -/
inductive SlotTag where
  | idle
  | assembling
  deriving DecidableEq, Repr, Inhabited

/-- One reassembly slot (spec/10_state.md R21 to R26). -/
structure Slot where
  tag : SlotTag
  accLen : Len
  fn : Addr
  src : Addr
  dst : Addr
  param : Byte
  buf : Memory
  deriving DecidableEq, Repr, Inhabited

/-- `f_phase`: which frame the fragmenter emits next (spec/10_state.md R29). -/
inductive FPhase where
  | idle
  | start
  | data
  | finish
  deriving DecidableEq, Repr, Inhabited

/-- Which step of the RECEIVE_ONE_FRAME in progress comes next: the header read, the rest of the fetch, the
filter (step B), the resolution and dispatch (step C) (spec/44_reassembler.md R161, spec/42_frame_parser.md R131). -/
inductive RPhase where
  | idle
  | header
  | payload
  | filter
  | dispatch
  deriving DecidableEq, Repr, Inhabited

/-- The twelve result kinds (spec/60_exceptions.md R185). -/
inductive ResultKind where
  | ok
  | inProgress
  | noData
  | noFreeSlot
  | invalidAddress
  | invalidFormat
  | invalidCrc
  | sendFailure
  | notInitialized
  | malformedHeader
  | initRejected
  | refused
  deriving DecidableEq, Repr, Inhabited

/-- The operation a result answers. -/
inductive HostOp where
  | init
  | send
  | receive
  | reserved
  deriving DecidableEq, Repr, Inhabited

/-- A packet (spec/30_encoding.md R89). -/
structure Packet where
  fn : Addr
  src : Addr
  dst : Addr
  param : Byte
  payload : List Byte
  deriving DecidableEq, Repr, Inhabited

/-- What is delivered on `host_result`: the kind and, with `ok` of RECEIVE_ONE_FRAME, the packet
(spec/00_scope.md R17, spec/10_state.md R33). -/
structure HostResult where
  op : HostOp
  kind : ResultKind
  packet : Option Packet
  deriving DecidableEq, Repr, Inhabited

/-- One `transmit` call: the bytes handed over and the transport's answer (spec/20_memory.md R51). -/
structure TxCall where
  bytes : List Byte
  answer : TxAnswer
  deriving DecidableEq, Repr, Inhabited

/-- The state: first the parameters, then the state of the block (spec/10_state.md R20), then the state of the
world (R34), then the model's free inputs (log 1, 2, 11, 12). -/
structure State where
  /-- The parameters, fixed before reset (spec/00_scope.md section 4). -/
  cfg : Params
  /-- The slot table (spec/10_state.md R21); its length is `SLOT_CAPACITY`. -/
  slots : List Slot
  /-- `tx_bound` (R31). -/
  txBound : Bool
  /-- `rx_bound` (R31). -/
  rxBound : Bool
  /-- `f_phase` (R29). -/
  fPhase : FPhase
  /-- `f_seq` (R29). -/
  fSeq : Byte
  /-- `f_off` (R29). -/
  fOff : Len
  /-- `f_chk` (R29). -/
  fChk : Byte
  /-- `f_param` (R29). -/
  fParam : Byte
  /-- The operands of the SEND_PACKET that is running, held by the host interface (R29): from its acceptance on, so
  also before its first frame, while `f_phase` is still `F_IDLE` (log 19). -/
  sendOp : Option SendOp
  /-- The next step of the RECEIVE_ONE_FRAME in progress (spec/44_reassembler.md R161). -/
  rPhase : RPhase
  /-- The `local_address` of the RECEIVE_ONE_FRAME in progress (spec/44_reassembler.md R160). -/
  recvOp : Option Addr
  /-- The frame register (R30). -/
  fr : FrameReg
  /-- `lock_held` (R32). Step C is atomic, so between steps it is another holder's (log 17). -/
  lockHeld : Bool
  /-- What was delivered on `host_result`, in order: a record of the model (R33; log 26). -/
  results : List HostResult
  /-- `rx_fifo` (R34). -/
  rxFifo : List Byte
  /-- The `transmit` calls made, in order; `tx_log` of R34 is a view of it (log 11). -/
  txCalls : List TxCall
  /-- The commands the host will issue, in order (log 2). -/
  hostQueue : List HostCmd
  /-- What happens next; when it is empty, `Config.event` says (log 1). -/
  script : List Event
  /-- What the next `transmit` calls answer; then `Config.transmitAnswer` (log 11). -/
  txAnswers : List TxAnswer
  /-- How the next `receive_exact` calls fare; then `Config.receiveAnswer` (log 12). -/
  rxAnswers : List RxAnswer
  /-- How many free `transmit` answers were drawn. -/
  txDraws : Nat
  /-- How many free `receive_exact` answers were drawn. -/
  rxDraws : Nat
  /-- How many free events were drawn. -/
  eventDraws : Nat
  deriving DecidableEq, Repr, Inhabited

/-- Why the machine stops with a fault. Both are safe: the hardware reaches neither (spec/10_state.md R27). -/
inductive Fault where
  /-- A slot buffer access past offset 255, which does not exist (spec/10_state.md R26, spec/20_memory.md R67).
  Raised by `bufRead` and `bufWrite`. safe: only a slot whose `acc_len` is above 256 leads here, and 257 to 511
  "are never reached and have no meaning" (spec/10_state.md R23). -/
  | bufferRange
  /-- A read of a buffer byte that nothing has written, whose value the spec leaves unspecified
  (spec/10_state.md R26, R40). Raised by `bufRead`. safe (log 8): no rule reads such a byte. -/
  | unwrittenByte
  deriving DecidableEq, Repr

/-- Why the machine gives no meaning. -/
inductive Refusal where
  /-- An instruction without a meaning; raised by `exec` only, and by no arm of it: every row has its meaning. -/
  | notModelled (mnemonic : String)
  /-- The parameters break spec/30_encoding.md R85 or there is no slot (spec/00_scope.md R7): not a legal instance
  of the block (spec/70_reset_and_hazards.md R213, spec/93_implementation_defined.md U6). Raised by `step`. safe. -/
  | illegalConfiguration
  /-- A queued SEND_PACKET of at most 256 bytes whose payload operand does not hold `length` bytes: no transaction
  of spec/00_scope.md R17. Raised by the host's step. safe (log 20). -/
  | illFormedCommand
  deriving DecidableEq, Repr

/-- A slot after reset: `Idle`, `acc_len = 0` (spec/10_state.md R37, R38); no buffer byte has a value (R40).
DESIGN CHOICE (log 7): the identifier registers, which R39 leaves unspecified, are 0. unsafe. -/
def Slot.reset : Slot := ⟨.idle, 0, 0, 0, 0, 0, []⟩

/-- The frame register after reset.
DESIGN CHOICE (log 7): all 0, which spec/10_state.md R43 leaves unspecified. unsafe. -/
def FrameReg.reset : FrameReg := ⟨0, ⟨0, 0, 0, 0, 0, 0, false, false⟩, []⟩

/-- The machine right after reset: spec/10_state.md R37 to R44, spec/70_reset_and_hazards.md R211.
DESIGN CHOICE (log 7, log 10): the registers the spec leaves unspecified are 0, the world's queues are empty.
unsafe. -/
def State.reset : State where
  cfg := .default
  slots := List.replicate slotCapacity Slot.reset
  txBound := false
  rxBound := false
  fPhase := .idle
  fSeq := 0
  fOff := 0
  fChk := 0
  fParam := 0
  sendOp := none
  rPhase := .idle
  recvOp := none
  fr := FrameReg.reset
  lockHeld := false
  results := []
  rxFifo := []
  txCalls := []
  hostQueue := []
  script := []
  txAnswers := []
  rxAnswers := []
  txDraws := 0
  rxDraws := 0
  eventDraws := 0

end Sys2Proof.Machine
end

