-- ==== Sys2Proof/Machine/Checksum.lean ====
section
/-! DEFINITION. The interface `chk`: the checksum as a parameter (spec/00_scope.md R12), with the two test
instantiations of the spec. -/

namespace Sys2Proof.Machine

/-- One bit of T-CRC8: shift left, and xor 0x07 where bit 7 was set (spec/95_test_vectors.md, conventions). -/
def crcBit (a : Byte) : Byte := if a.getLsbD 7 then (a <<< 1) ^^^ 0x07 else a <<< 1

/-- `n` bits of T-CRC8. -/
def crcBits : Nat → Byte → Byte
  | 0, a => a
  | n + 1, a => crcBits n (crcBit a)

/-- The step of a checksum unit on one byte. -/
def checksumStep : ChecksumUnit → Byte → Byte → Byte
  | .external, a, b => Config.checksumStep a b
  | .tSum, a, b => a + b
  | .tCrc8, a, b => crcBits 8 (a ^^^ b)

/-- `CHK_INIT` of a checksum unit (spec/00_scope.md R12; 0 for both test units). -/
def chkInit : ChecksumUnit → Byte
  | .external => Config.chkInit
  | .tSum => 0
  | .tCrc8 => 0

/-- `checksum8(accumulator, bytes)`: a left fold over the bytes (spec/00_scope.md R12, CHK-FOLD, CHK-EMPTY). -/
def checksum8 (u : ChecksumUnit) (acc : Byte) (bytes : List Byte) : Byte :=
  bytes.foldl (checksumStep u) acc

/-- CHK-SENS (spec/00_scope.md R12): a hypothesis of the claims that need it, never assumed of the open unit. -/
def ChecksumSensitive (u : ChecksumUnit) : Prop :=
  (∀ a b c, checksumStep u a b = checksumStep u a c → b = c) ∧
  (∀ a c b, checksumStep u a b = checksumStep u c b → a = c)

end Sys2Proof.Machine
end

