-- ==== Sys2Proof/Machine/Flags.lean ====
section
/-! DEFINITION. The conditions the operations test. The block has no condition codes; its only flag is a
slot's `in_progress` (spec/10_state.md R33). -/

namespace Sys2Proof.Machine

/-- `ceil8(n) = (n + 7) div 8` (spec/00_scope.md section 7, spec/43_slot_controller.md R152). -/
def ceil8 (n : Nat) : Nat := (n + 7) / 8

/-- `expected_frame_count` of a slot (spec/43_slot_controller.md R152). -/
def expectedFrameCount (accLen : Len) : Nat := ceil8 accLen.toNat

/-- `in_progress` (spec/10_state.md R22, R28). -/
def Slot.inProgress (sl : Slot) : Bool := decide (sl.tag = .assembling)

/-- The slot assembles packets of stream `fn`: the test of RESOLVE's first scan and of ON_DATA
(spec/43_slot_controller.md R141, spec/44_reassembler.md R170). -/
def Slot.assembles (fn : Addr) (sl : Slot) : Bool := sl.inProgress && decide (sl.fn = fn)

/-- The overflow test, on numbers that do not wrap (spec/43_slot_controller.md R146). -/
def wouldOverflow (accLen : Len) (len : BitVec 4) : Bool := decide (maxPacketPayload < accLen.toNat + len.toNat)

/-- An END frame with fewer than 3 payload bytes (spec/44_reassembler.md R165). -/
def shortEnd (len : BitVec 4) : Bool := decide (len.toNat < 3)

/-- The frame count test of END fails: an unsigned comparison (spec/44_reassembler.md R166, decision D40). -/
def countMismatch (count : Byte) (accLen : Len) : Bool := decide (count.toNat ≠ expectedFrameCount accLen)

/-- The checksum test of END fails (spec/44_reassembler.md R167). -/
def checksumMismatch (u : ChecksumUnit) (chk : Byte) (bytes : List Byte) : Bool :=
  decide (chk ≠ checksum8 u (chkInit u) bytes)

/-- The numeric code of a result kind (spec/60_exceptions.md R185, decision D29). -/
def ResultKind.code : ResultKind → Nat
  | .ok => 0
  | .inProgress => 1
  | .noData => 2
  | .noFreeSlot => 3
  | .invalidAddress => 4
  | .invalidFormat => 5
  | .invalidCrc => 6
  | .sendFailure => 7
  | .notInitialized => 8
  | .malformedHeader => 9
  | .initRejected => 10
  | .refused => 11

/-- The 2-bit code of `f_phase` (spec/10_state.md R29). -/
def FPhase.code : FPhase → BitVec 2
  | .idle => 0
  | .start => 1
  | .data => 2
  | .finish => 3

end Sys2Proof.Machine
end

