-- ==== Sys2Proof/Machine/Operands.lean ====
section
/-! DEFINITION. The operands: of a frame (spec/30_encoding.md R80, R81) and of a SEND_PACKET
(spec/41_fragmenter.md R112). -/

namespace Sys2Proof.Machine

/-- `P[0]` of an END frame, `frame_count` (spec/30_encoding.md R80). -/
def endCount (payload : List Byte) : Byte := payload.getD 0 0

/-- `P[1]` of an END frame, `checksum` (spec/30_encoding.md R80). -/
def endChecksum (payload : List Byte) : Byte := payload.getD 1 0

/-- `P[2]` of an END frame, `original_parameter` (spec/30_encoding.md R80). -/
def endParam (payload : List Byte) : Byte := payload.getD 2 0

/-- The length of the chunk at offset `off`: `min(8, length - off)` (spec/41_fragmenter.md R121). -/
def chunkLen (length off : Nat) : Nat := min maxFramePayload (length - off)

/-- The chunk at offset `off` (spec/41_fragmenter.md R112, R121). -/
def chunkAt (op : SendOp) (off : Nat) : List Byte :=
  (op.payload.drop off).take (chunkLen op.length.toNat off)

/-- The START frame of a packet (spec/41_fragmenter.md R111). -/
def startBytes (p : Params) (op : SendOp) : List Byte := encodeFrame p p.paramStart op.src op.dst op.fn []

/-- The data frame with sequence number `seq` and the chunk at `off` (spec/41_fragmenter.md R113). -/
def dataBytes (p : Params) (op : SendOp) (seq : Byte) (off : Nat) : List Byte :=
  encodeFrame p seq op.src op.dst op.fn (chunkAt op off)

/-- The END frame with its three payload bytes (spec/41_fragmenter.md R115). -/
def endBytes (p : Params) (op : SendOp) (count chk param : Byte) : List Byte :=
  encodeFrame p p.paramEnd op.src op.dst op.fn [count, chk, param]

/-- The frames of a whole packet, in the order they are sent (spec/41_fragmenter.md R125). -/
def packetFrames (p : Params) (op : SendOp) : List (List Byte) :=
  let n := ceil8 op.length.toNat
  startBytes p op ::
    ((List.range n).map fun k => dataBytes p op (BitVec.ofNat 8 k) (maxFramePayload * k)) ++
    [endBytes p op (BitVec.ofNat 8 n) (checksum8 p.checksum (chkInit p.checksum) op.payload) op.param]

end Sys2Proof.Machine
end

