-- ==== Sys2Proof/Machine/Ops.lean ====
section
/-! DEFINITION. The named operations over the slot buffers, the slot table, the transport, the lock and the
host result. Delivering a result stands where taking an exception stands in a processor
(spec/60_exceptions.md R199): nothing is saved, and there is no return operation (R200). -/

namespace Sys2Proof.Machine

/-- What `exec` and `step` answer. -/
abbrev Outcome := Host.Outcome State Fault Refusal

/-- Continue a next state; a fault or a refusal stays. -/
def andThen (o : Outcome) (f : State → Outcome) : Outcome :=
  match o with
  | .next s => f s
  | .fault r => .fault r
  | .refused r => .refused r

/-! Slot buffers (spec/00_scope.md section 7, spec/20_memory.md R67). -/

/-- The byte at an offset, if something has written it: what an unlisted offset reads as is no value
(spec/10_state.md R40; log 8). -/
def Memory.read : Memory → Nat → Option Byte
  | [], _ => none
  | (k, v) :: m, a => if k = a then some v else Memory.read m a

/-- Write one byte, keeping the offsets strictly rising. -/
def Memory.write : Memory → Nat → Byte → Memory
  | [], a, b => [(a, b)]
  | (k, v) :: m, a, b =>
      if a < k then (a, b) :: (k, v) :: m
      else if a = k then (a, b) :: m
      else (k, v) :: Memory.write m a b

/-- Every offset of the list is above `lo`, and the offsets are strictly rising. -/
def Memory.risingFrom : Nat → Memory → Bool
  | _, [] => true
  | lo, (k, _) :: m => decide (lo < k) && Memory.risingFrom k m

/-- The canonical form: offsets strictly rising. An unlisted offset has no value, so no entry equals what an
unlisted offset reads as. -/
def Memory.wf : Memory → Bool
  | [] => true
  | (k, _) :: m => Memory.risingFrom k m

/-- Every listed offset exists: 0 to 255 (spec/10_state.md R26). -/
def Memory.bounded (m : Memory) : Bool := m.all fun c => decide (c.1 < maxPacketPayload)

/-- Write the bytes at consecutive offsets from `a`. -/
def writeBytes : Memory → Nat → List Byte → Memory
  | m, _, [] => m
  | m, a, b :: bs => writeBytes (m.write a b) (a + 1) bs

/-- Read `n` bytes at consecutive offsets from `a`. -/
def readBytes (m : Memory) : Nat → Nat → Option (List Byte)
  | _, 0 => some []
  | a, n + 1 =>
      match m.read a, readBytes m (a + 1) n with
      | some b, some bs => some (b :: bs)
      | _, _ => none

/-- `BufWrite(i, a, bs)`: requires `a + len(bs) <= 256` (spec/00_scope.md section 7). -/
def bufWrite (m : Memory) (a : Nat) (bs : List Byte) : Except Fault Memory :=
  if a + bs.length ≤ maxPacketPayload then .ok (writeBytes m a bs) else .error .bufferRange

/-- `BufRead(i, a, n)`: requires `a + n <= 256` (spec/00_scope.md section 7); a byte nothing has written has no
value to give (log 8). -/
def bufRead (m : Memory) (a n : Nat) : Except Fault (List Byte) :=
  if a + n ≤ maxPacketPayload then
    match readBytes m a n with
    | some bs => .ok bs
    | none => .error .unwrittenByte
  else .error .bufferRange

/-! The slot table (spec/43_slot_controller.md). -/

/-- `slot[i]`. RESOLVE gives only indices of the table; another index reads as a slot after reset. -/
def State.slot (s : State) (i : Nat) : Slot := s.slots.getD i Slot.reset

/-- Write `slot[i]`; every other slot stays. -/
def State.setSlot (s : State) (i : Nat) (sl : Slot) : State := { s with slots := s.slots.set i sl }

/-- One byte of a slot's buffer. -/
def State.readByte (s : State) (i a : Nat) : Option Byte := (s.slot i).buf.read a

/-- RESOLVE (spec/43_slot_controller.md R141, R143): the lowest slot that assembles `fn`, else the lowest `Idle`
slot, else `NoFreeSlot` (none). -/
def resolve (slots : List Slot) (fn : Addr) : Option Nat :=
  match slots.findIdx? (Slot.assembles fn) with
  | some i => some i
  | none => slots.findIdx? fun sl => !sl.inProgress

/-- SLOT_START (spec/43_slot_controller.md R144): no buffer byte is cleared, `param` is not written. -/
def Slot.start (f : Fields) (sl : Slot) : Slot :=
  { sl with tag := .assembling, accLen := 0, fn := f.fn, src := f.src, dst := f.dst }

/-- SLOT_APPEND (spec/43_slot_controller.md R145) of the `len` payload bytes. -/
def Slot.append (f : Fields) (payload : List Byte) (sl : Slot) : Except Fault Slot :=
  match bufWrite sl.buf sl.accLen.toNat (payload.take f.len.toNat) with
  | .ok m => .ok { sl with buf := m, accLen := sl.accLen + f.len.setWidth 9 }
  | .error r => .error r

/-- SLOT_ABORT (spec/43_slot_controller.md R147): the other registers and the buffer keep their values. -/
def Slot.abort (sl : Slot) : Slot := { sl with tag := .idle, accLen := 0 }

/-- SLOT_COMPLETE (spec/43_slot_controller.md R148): the slot after it. -/
def Slot.complete (param : Byte) (sl : Slot) : Slot := { sl with tag := .idle, accLen := 0, param := param }

/-- SLOT_COMPLETE (spec/43_slot_controller.md R148): the delivered packet, from the slot's identifier, the END
frame's third byte and the accumulated payload. -/
def Slot.packet (param : Byte) (payload : List Byte) (sl : Slot) : Packet :=
  ⟨sl.fn, sl.src, sl.dst, param, payload⟩

/-! The lock (spec/20_memory.md R57). -/

/-- `acquire()`. -/
def State.acquire (s : State) : State := { s with lockHeld := true }

/-- `release()`. -/
def State.release (s : State) : State := { s with lockHeld := false }

/-- Step C under one acquisition of the lock, released on every path (spec/20_memory.md R57, R58,
spec/43_slot_controller.md R151). While another holder has the lock the operation waits: it takes no step
(spec/93_implementation_defined.md U16; log 17). -/
def underLock (body : State → Outcome) (s : State) : Outcome :=
  if s.lockHeld then .next s else andThen (body s.acquire) fun t => .next t.release

/-! The host result (spec/60_exceptions.md R185, R199). -/

/-- Deliver a result on `host_result`. -/
def State.deliver (s : State) (op : HostOp) (kind : ResultKind) (packet : Option Packet) : State :=
  { s with results := s.results ++ [⟨op, kind, packet⟩] }

/-- The end of a SEND_PACKET: `f_phase <- F_IDLE`, the operands are let go, the result is delivered
(spec/41_fragmenter.md R116, R121). The other working registers are not written (log 13). -/
def State.finishSend (s : State) (kind : ResultKind) : State :=
  { s.deliver .send kind none with fPhase := .idle, sendOp := none }

/-- The end of a RECEIVE_ONE_FRAME: the result, with a packet where the kind is `ok` (spec/44_reassembler.md R160,
R161). The frame register is not written (log 13). -/
def State.finishReceive (s : State) (kind : ResultKind) (packet : Option Packet) : State :=
  { s.deliver .receive kind packet with rPhase := .idle, recvOp := none }

/-! The units (spec/40_host_operations.md R105). -/

/-- The fragmenter has a SEND_PACKET: accepted, its operands held (spec/10_state.md R29), or between two frames. -/
def State.sendBusy (s : State) : Bool := s.sendOp.isSome || decide (s.fPhase ≠ .idle)

/-- The reassembler is running a RECEIVE_ONE_FRAME. -/
def State.receiveBusy (s : State) : Bool := decide (s.rPhase ≠ .idle)

/-! The transport (spec/20_memory.md R51, R52). -/

/-- What the next `transmit` call answers: a free input (spec/20_memory.md R51). -/
def State.nextTxAnswer (s : State) : TxAnswer :=
  match s.txAnswers with
  | a :: _ => a
  | [] => Config.transmitAnswer s.txDraws

/-- `Transmit(bs)`: the call is recorded with its answer and the answer is used up. -/
def State.transmit (s : State) (bytes : List Byte) : State :=
  { s with
    txCalls := s.txCalls ++ [⟨bytes, s.nextTxAnswer⟩]
    txAnswers := s.txAnswers.tail
    txDraws := if s.txAnswers = [] then s.txDraws + 1 else s.txDraws }

/-- How the next `receive_exact` call fares: a free input (spec/93_implementation_defined.md U8). -/
def State.nextRxAnswer (s : State) : RxAnswer :=
  match s.rxAnswers with
  | a :: _ => a
  | [] => Config.receiveAnswer s.rxDraws

/-- What `ReceiveExact(n)` answers: the `n` bytes at the head of the FIFO, or none when fewer are pending or the
transport fails (spec/20_memory.md R52). -/
def State.received (s : State) (n : Nat) : Option (List Byte) :=
  if s.nextRxAnswer = .serve ∧ n ≤ s.rxFifo.length then some (s.rxFifo.take n) else none

/-- The state after `ReceiveExact(n)`: a successful call consumes its bytes, a failed one nothing
(spec/20_memory.md R52, R66). -/
def State.afterReceive (s : State) (n : Nat) : State :=
  { s with
    rxFifo := if s.received n = none then s.rxFifo else s.rxFifo.drop n
    rxAnswers := s.rxAnswers.tail
    rxDraws := if s.rxAnswers = [] then s.rxDraws + 1 else s.rxDraws }

/-- The bytes of one call that left the block: all of them, or after an error the prefix the transport drew
(spec/93_implementation_defined.md U7). -/
def TxCall.sent (c : TxCall) : List Byte :=
  match c.answer with
  | .ok => c.bytes
  | .error n => c.bytes.take n

/-- `tx_log`: the byte sequences of the calls that answered `ok`, in call order (spec/10_state.md R34). -/
def State.txLog (s : State) : List (List Byte) :=
  (s.txCalls.filter fun c => decide (c.answer = .ok)).map TxCall.bytes

/-- The bytes that left the block, prefixes of failed calls included (spec/93_implementation_defined.md U7). -/
def State.txWire (s : State) : List Byte := s.txCalls.flatMap TxCall.sent

/-! Reset (spec/70_reset_and_hazards.md R210, R211). -/

/-- The reset event: the block takes its reset values, an operation in flight is dropped without a result, the
parameters, the transport and the host stay (spec/10_state.md R37 to R44).
DESIGN CHOICE (log 9): the registers R39, R40, R42, R43 leave unspecified take the values they have in
`State.reset`. unsafe. -/
def State.resetBlock (s : State) : State :=
  { s with
    slots := List.replicate s.slots.length Slot.reset
    txBound := false
    rxBound := false
    fPhase := .idle
    fSeq := 0
    fOff := 0
    fChk := 0
    fParam := 0
    sendOp := none
    rPhase := .idle
    recvOp := none
    fr := FrameReg.reset
    lockHeld := false }

end Sys2Proof.Machine
end

