-- ==== Sys2Proof/Machine/Fragmenter.lean ====
section
/-! DEFINITION. SEND_PACKET (spec/41_fragmenter.md R110 to R125). One `execSendPacket` is one step of the
operation: the host's issue, then one step of the fragmenter per frame, chosen by `f_phase` (R120, R121,
spec/00_scope.md R16). -/

namespace Sys2Proof.Machine

/-- The two tests of spec/41_fragmenter.md R121 before its first step: turned away before initialisation
(spec/40_host_operations.md R102) and with more than 256 bytes (R104); else the host interface holds the operands
(spec/10_state.md R29). No working register is written: that is EMIT_START's.
DESIGN CHOICE (log 19): the tests are the host's step, EMIT_START the fragmenter's next one. safe. -/
def acceptSend (op : SendOp) (s : State) : Outcome :=
  if !s.txBound then .next (s.finishSend .notInitialized)
  else if maxPacketPayload < op.length.toNat then .next (s.finishSend .refused)
  else .next { s with sendOp := some op }

/-- One `transmit` call for one frame: an error ends the operation with `SendFailure`, no further call is made
(spec/41_fragmenter.md R116). -/
def emit (bytes : List Byte) (onOk : State → State) (s : State) : Outcome :=
  match s.nextTxAnswer with
  | .ok => .next (onOk (s.transmit bytes))
  | .error _ => .next ((s.transmit bytes).finishSend .sendFailure)

/-- The register writes EMIT_START begins with (spec/41_fragmenter.md R111, R121). -/
def State.setupSend (op : SendOp) (s : State) : State :=
  { s with fParam := op.param, fSeq := 0, fOff := 0, fChk := chkInit s.cfg.checksum, fPhase := .start }

/-- The phase after the START frame was sent (spec/41_fragmenter.md R120, R121). -/
def State.afterStart (op : SendOp) (s : State) : State :=
  { s with fPhase := if 0 < op.length.toNat then .data else .finish }

/-- EMIT_START, the whole block in one step: the registers, the call, the phase (spec/41_fragmenter.md R111, R121). -/
def emitStart (op : SendOp) (s : State) : Outcome :=
  emit (startBytes s.cfg op) (State.afterStart op) (s.setupSend op)

/-- The registers after a data frame was sent (spec/41_fragmenter.md R113, R114, R121). -/
def State.afterData (op : SendOp) (s : State) : State :=
  let off := s.fOff.toNat
  { s with
    fChk := checksum8 s.cfg.checksum s.fChk (chunkAt op off)
    fSeq := s.fSeq + 1
    fOff := s.fOff + BitVec.ofNat 9 (chunkLen op.length.toNat off)
    fPhase := if off + chunkLen op.length.toNat off < op.length.toNat then .data else .finish }

/-- EMIT_DATA, one turn of the loop of spec/41_fragmenter.md R121. Where the loop's test fails the phase moves on
with no frame ("no chunk is empty", R112). -/
def emitData (op : SendOp) (s : State) : Outcome :=
  if s.fOff.toNat < op.length.toNat then
    emit (dataBytes s.cfg op s.fSeq s.fOff.toNat) (State.afterData op) s
  else .next { s with fPhase := .finish }

/-- EMIT_END (spec/41_fragmenter.md R115, R121). -/
def emitEnd (op : SendOp) (s : State) : Outcome :=
  emit (endBytes s.cfg op s.fSeq s.fChk s.fParam) (fun t => t.finishSend .ok) s

/-- SEND_PACKET (spec/41_fragmenter.md R120, R121). In `F_IDLE` held operands are those of an accepted operation,
whose first frame comes next; `F_START` is left in the step that enters it, so no run rests there. -/
def execSendPacket (op : SendOp) (s : State) : Outcome :=
  match s.fPhase with
  | .idle =>
      match s.sendOp with
      | none => acceptSend op s
      | some _ => emitStart op s
  | .start => emitStart op s
  | .data => emitData op s
  | .finish => emitEnd op s

end Sys2Proof.Machine
end

