-- ==== Sys2Proof/Machine/HostOps.lean ====
section
/-! DEFINITION. The host operation INIT and the reserved command code (spec/40_host_operations.md). -/

namespace Sys2Proof.Machine

/-- INIT: rejected whole if either function is missing, else both are bound; no slot, no working register and
nothing of the transport is touched (spec/40_host_operations.md R101, R103). -/
def execInit (txPresent rxPresent : Bool) (s : State) : Outcome :=
  if txPresent && rxPresent then .next ({ s with txBound := true, rxBound := true }.deliver .init .ok none)
  else .next (s.deliver .init .initRejected none)

/-- The reserved command: `Refused`, and nothing changes (spec/40_host_operations.md R104). -/
def execReservedCmd (s : State) : Outcome := .next (s.deliver .reserved .refused none)

end Sys2Proof.Machine
end

