-- ==== Sys2Proof/Machine/Frames.lean ====
section
/-! DEFINITION. The frame rows START, END, DATA and reserved_len: step C of a RECEIVE_ONE_FRAME
(spec/44_reassembler.md R161 to R171), and the end of step A for a malformed header
(spec/42_frame_parser.md R134). -/

namespace Sys2Proof.Machine

/-- RESOLVE, then the branch of the role on the resolved slot; with no slot the result is `NoFreeSlot` and no
slot changes (spec/43_slot_controller.md R142, spec/44_reassembler.md R161). -/
def resolveThen (fn : Addr) (branch : Nat → State → Outcome) (s : State) : Outcome :=
  match resolve s.slots fn with
  | none => .next (s.finishReceive .noFreeSlot none)
  | some i => branch i s

/-- ON_START (spec/44_reassembler.md R163). -/
def onStart (f : Fields) (i : Nat) (s : State) : Outcome :=
  .next ((s.setSlot i ((s.slot i).start f)).finishReceive .inProgress none)

/-- SLOT_ABORT of slot `i` and an error result (spec/43_slot_controller.md R147, spec/60_exceptions.md R199). -/
def abortWith (kind : ResultKind) (i : Nat) (s : State) : Outcome :=
  .next ((s.setSlot i (s.slot i).abort).finishReceive kind none)

/-- ON_END after the frame count matched: the checksum test, then completion (spec/44_reassembler.md R167, R168). -/
def endValidate (payload : List Byte) (i : Nat) (s : State) : Outcome :=
  match bufRead (s.slot i).buf 0 (s.slot i).accLen.toNat with
  | .error r => .fault r
  | .ok bytes =>
      if checksumMismatch s.cfg.checksum (endChecksum payload) bytes then abortWith .invalidCrc i s
      else .next ((s.setSlot i ((s.slot i).complete (endParam payload))).finishReceive .ok
        (some ((s.slot i).packet (endParam payload) bytes)))

/-- ON_END: the four tests in their order, the first that fails decides (spec/44_reassembler.md R164 to R169). -/
def onEnd (f : Fields) (payload : List Byte) (i : Nat) (s : State) : Outcome :=
  if !(s.slot i).inProgress then .next (s.finishReceive .invalidFormat none)
  else if shortEnd f.len then abortWith .invalidFormat i s
  else if countMismatch (endCount payload) (s.slot i).accLen then abortWith .invalidFormat i s
  else endValidate payload i s

/-- ON_DATA: ignored where no slot assembles the stream, aborted on overflow, else appended
(spec/44_reassembler.md R170, R171). -/
def onData (f : Fields) (payload : List Byte) (i : Nat) (s : State) : Outcome :=
  if !(s.slot i).assembles f.fn then .next (s.finishReceive .inProgress none)
  else if wouldOverflow (s.slot i).accLen f.len then abortWith .invalidFormat i s
  else match (s.slot i).append f payload with
    | .error r => .fault r
    | .ok sl => .next ((s.setSlot i sl).finishReceive .inProgress none)

/-- START: the payload, if any, was fetched and is ignored (spec/44_reassembler.md R163, decision D18). -/
def execStartFrame (f : Fields) (_payload : List Byte) (s : State) : Outcome :=
  underLock (resolveThen f.fn (onStart f)) s

/-- END (spec/44_reassembler.md R164 to R169). -/
def execEndFrame (f : Fields) (payload : List Byte) (s : State) : Outcome :=
  underLock (resolveThen f.fn (onEnd f payload)) s

/-- DATA: the sequence number is never examined (spec/44_reassembler.md R170, R171, R177). -/
def execDataFrame (_seq : Byte) (f : Fields) (payload : List Byte) (s : State) : Outcome :=
  underLock (resolveThen f.fn (onData f payload)) s

/-- reserved_len: the invocation ends with `MalformedHeader`; no slot is touched and the lock is not taken
(spec/42_frame_parser.md R134, spec/44_reassembler.md R174). -/
def execReservedLen (_param : Byte) (_f : Fields) (s : State) : Outcome :=
  .next (s.finishReceive .malformedHeader none)

end Sys2Proof.Machine
end

