-- ==== Sys2Proof/Machine/Reassembler.lean ====
section
/-! DEFINITION. RECEIVE_ONE_FRAME (spec/44_reassembler.md R160 to R162, spec/42_frame_parser.md R130 to R138).
One `execReceiveOneFrame` is one step of the operation, chosen by `rPhase` (spec/00_scope.md R16). -/

namespace Sys2Proof.Machine

/-- The dispatch of RECEIVE_ONE_FRAME: turned away before initialisation with nothing touched
(spec/40_host_operations.md R102), else the invocation begins. -/
def acceptReceive (localAddress : Addr) (s : State) : Outcome :=
  if !s.rxBound then .next (s.finishReceive .notInitialized none)
  else .next { s with recvOp := some localAddress, rPhase := .header }

/-- The header read: `ReceiveExact(5)`, then `decode_header` into the frame register
(spec/42_frame_parser.md R130, R131, R132 case (a)). -/
def fetchHeader (s : State) : Outcome :=
  match s.received headerBytes with
  | none => .next ((s.afterReceive headerBytes).finishReceive .noData none)
  | some h => .next { s.afterReceive headerBytes with
      fr := { s.fr with param := headerParam h, fields := headerFields h }, rPhase := .payload }

/-- The rest of the fetch: a reserved length ends the invocation (spec/42_frame_parser.md R134); length 0 makes no
second read (R131); else `ReceiveExact(fr.len)`, and where it fails the header is lost (R132 case (b), R133).
DESIGN CHOICE (log 18): the length test stands in this step, after the step of the header read. safe. -/
def fetchPayload (s : State) : Outcome :=
  let n := s.fr.fields.len.toNat
  if maxFramePayload < n then execReservedLen s.fr.param s.fr.fields s
  else if n = 0 then .next { s with fr := { s.fr with payload := [] }, rPhase := .filter }
  else match s.received n with
    | none => .next ((s.afterReceive n).finishReceive .noData none)
    | some p => .next { s.afterReceive n with fr := { s.fr with payload := p }, rPhase := .filter }

/-- FILTER, step B (spec/44_reassembler.md R162): no lock, no slot. -/
def filterFrame (localAddress : Addr) (s : State) : Outcome :=
  if s.fr.fields.dst ≠ localAddress then .next (s.finishReceive .invalidAddress none)
  else .next { s with rPhase := .dispatch }

/-- Step C on the frame in the frame register, by its role (spec/44_reassembler.md R161, spec/42_frame_parser.md
R137). A length above 8 never gets here. -/
def dispatchFrame (s : State) : Outcome :=
  if maxFramePayload < s.fr.fields.len.toNat then execReservedLen s.fr.param s.fr.fields s
  else match role s.cfg s.fr.param with
    | .start => execStartFrame s.fr.fields s.fr.payload s
    | .finish => execEndFrame s.fr.fields s.fr.payload s
    | .data => execDataFrame s.fr.param s.fr.fields s.fr.payload s

/-- RECEIVE_ONE_FRAME (spec/44_reassembler.md R161). -/
def execReceiveOneFrame (localAddress : Addr) (s : State) : Outcome :=
  match s.rPhase with
  | .idle => acceptReceive localAddress s
  | .header => fetchHeader s
  | .payload => fetchPayload s
  | .filter => filterFrame localAddress s
  | .dispatch => dispatchFrame s

end Sys2Proof.Machine
end

