-- ==== Sys2Proof/Machine/Dispatch.lean ====
section
/-! DEFINITION. The meaning of every row of spec/opcode_table.json, one arm each. -/

namespace Sys2Proof.Machine

def exec (i : Instr) (s : State) : Host.Outcome State Fault Refusal :=
  match i with
  | .startFrame f payload => Sys2Proof.Machine.execStartFrame f payload s
  | .endFrame f payload => Sys2Proof.Machine.execEndFrame f payload s
  | .dataFrame seq f payload => Sys2Proof.Machine.execDataFrame seq f payload s
  | .reservedLen param f => Sys2Proof.Machine.execReservedLen param f s
  | .init txPresent rxPresent => Sys2Proof.Machine.execInit txPresent rxPresent s
  | .sendPacket op => Sys2Proof.Machine.execSendPacket op s
  | .receiveOneFrame localAddress => Sys2Proof.Machine.execReceiveOneFrame localAddress s
  | .reservedCmd => Sys2Proof.Machine.execReservedCmd s

end Sys2Proof.Machine
end

