-- ==== Sys2Proof/Machine/Agents.lean ====
section
/-! DEFINITION. The agents of spec/00_scope.md R16: what happens next, and the step of the agent it names. -/

namespace Sys2Proof.Machine

/-- A legal instance of the block: legal sentinels (spec/30_encoding.md R85) and at least one slot
(spec/00_scope.md R7). -/
def State.legal (s : State) : Bool := s.cfg.legal && decide (0 < s.slots.length)

/-- What happens next: the head of the script, else a free value (log 1). -/
def State.nextEvent (s : State) : Event :=
  match s.script with
  | e :: _ => e
  | [] => Config.event s.eventDraws

/-- The state with that event used up. -/
def State.afterEvent (s : State) : State :=
  { s with
    script := s.script.tail
    eventDraws := if s.script = [] then s.eventDraws + 1 else s.eventDraws }

/-- The unit an operation needs is free: one operation per unit at a time, and INIT only when neither runs
(spec/40_host_operations.md R105). -/
def State.unitFree (s : State) : Instr → Bool
  | .init _ _ => !s.sendBusy && !s.receiveBusy
  | .sendPacket _ => !s.sendBusy
  | .receiveOneFrame _ => !s.receiveBusy
  | .reservedCmd => true
  | .startFrame _ _ => true
  | .endFrame _ _ => true
  | .dataFrame _ _ _ => true
  | .reservedLen _ _ => true

/-- The host's step: decode the command at the head of the queue and execute it. A command whose unit is busy
waits (spec/40_host_operations.md R105; log 16). -/
def hostStep (s : State) : Outcome :=
  match s.hostQueue with
  | [] => .next s
  | c :: cs =>
      match decodeCommand c with
      | .error _ => .refused .illFormedCommand
      | .ok i => if s.unitFree i then exec i { s with hostQueue := cs } else .next s

/-- The fragmenter's step: the next step of the SEND_PACKET that is running, if one is. -/
def fragmenterStep (s : State) : Outcome :=
  match s.sendOp with
  | none => .next s
  | some op => exec (.sendPacket op) s

/-- The frame register holds an operation that is ready to run: a frame that passed the filter, or a header with
a reserved length. -/
def State.frameReady (s : State) : Bool :=
  decide (s.rPhase = .dispatch) ||
    (decide (s.rPhase = .payload) && decide (maxFramePayload < s.fr.fields.len.toNat))

/-- What the reassembler executes next: the operation decoded from the frame register, or the next step of the
RECEIVE_ONE_FRAME in progress. -/
def State.receiveInstr (s : State) (localAddress : Addr) : Instr :=
  if s.frameReady then frameInstr s.cfg s.fr else .receiveOneFrame localAddress

/-- The reassembler's step, if an invocation is in progress. -/
def reassemblerStep (s : State) : Outcome :=
  match s.recvOp with
  | none => .next s
  | some a => exec (s.receiveInstr a) s

/-- One event. Bytes, commands, the lock's other holder and the reset come from outside the block. -/
def applyEvent (e : Event) (s : State) : Outcome :=
  match e with
  | .host => hostStep s
  | .fragmenter => fragmenterStep s
  | .reassembler => reassemblerStep s
  | .command c => .next { s with hostQueue := s.hostQueue ++ [c] }
  | .arrive bytes => .next { s with rxFifo := s.rxFifo ++ bytes }
  | .lockTaken => .next s.acquire
  | .lockGiven => .next s.release
  | .reset => .next s.resetBlock

/-- One step of the machine: the next event, on a legal instance only (spec/70_reset_and_hazards.md R213). -/
def agentStep (s : State) : Outcome :=
  if s.legal then applyEvent s.nextEvent s.afterEvent else .refused .illegalConfiguration

/-- A frame in the frame register of an invocation in progress, ready to run at the reassembler's next step. -/
def State.placeFrame (s : State) (bytes : List Byte) : State :=
  let f := headerFields (bytes.take headerBytes)
  let malformed := decide (maxFramePayload < f.len.toNat)
  { s with
    txBound := true
    rxBound := true
    recvOp := some f.dst
    fr := ⟨headerParam (bytes.take headerBytes), f,
      if malformed then [] else (bytes.drop headerBytes).take f.len.toNat⟩
    rPhase := if malformed then .payload else .dispatch
    script := .reassembler :: s.script }

/-- A command at the head of the host's queue, to be issued at the next step. -/
def State.placeCommand (s : State) (c : HostCmd) : State :=
  { s with hostQueue := c :: s.hostQueue, script := .host :: s.script }

/-- An encoded operation where the next step takes it from (log 2). -/
def State.placeEncoded (s : State) : Encoded → State
  | .frame bytes => s.placeFrame bytes
  | .command c => s.placeCommand c

end Sys2Proof.Machine
end

