-- ==== Sys2Proof/Machine/Step.lean ====
section
/-! DEFINITION. One step of the machine, and where the next instruction is put. -/

namespace Sys2Proof.Machine

/-- One step of one agent (spec/00_scope.md R16, R18). -/
def step (s : State) : Host.Outcome State Fault Refusal := agentStep s

/-- The instruction of a table word placed so that the very next step runs exactly it (log 2): a host command at
the head of the host's queue with the host to move; a frame in the frame register of an invocation in progress,
for its own destination address, with the reassembler to move. -/
def State.withFetchWord (s : State) (nbits w : Nat) : State :=
  match tableEncoded nbits w with
  | some e => s.placeEncoded e
  | none => s

end Sys2Proof.Machine
end

