-- ==== Sys2Proof/Machine/Calls.lean ====
section
/-! DEFINITION. A whole operation with no other agent in between: the step-by-step meaning run until the result
is delivered (spec/41_fragmenter.md R121, spec/44_reassembler.md R161). -/

namespace Sys2Proof.Machine

/-- Go on executing `i` while the unit is busy, at most `fuel` times. -/
def continueCall (busy : State → Bool) (i : Instr) : Nat → State → Outcome
  | 0, s => .next s
  | fuel + 1, s => if busy s then andThen (exec i s) (continueCall busy i fuel) else .next s

/-- At most 34 `transmit` calls (spec/41_fragmenter.md R120). -/
def maxSendSteps : Nat := 34

/-- The four steps after the dispatch: header, payload, filter, resolution and dispatch. -/
def maxReceiveSteps : Nat := 4

/-- A whole SEND_PACKET. -/
def callSend (op : SendOp) (s : State) : Outcome :=
  andThen (exec (.sendPacket op) s) (continueCall State.sendBusy (.sendPacket op) maxSendSteps)

/-- A whole RECEIVE_ONE_FRAME. -/
def callReceive (localAddress : Addr) (s : State) : Outcome :=
  andThen (exec (.receiveOneFrame localAddress) s)
    (continueCall State.receiveBusy (.receiveOneFrame localAddress) maxReceiveSteps)

/-- `n` whole RECEIVE_ONE_FRAME, one after the other (the host's polling loop). -/
def pollTimes (localAddress : Addr) : Nat → State → Outcome
  | 0, s => .next s
  | n + 1, s => andThen (callReceive localAddress s) (pollTimes localAddress n)

end Sys2Proof.Machine
end

