-- ==== Sys2Proof/Safety.lean ====
section
/-! DEFINITION. The invariants of the block, the classes of its results, and what counts as a good run. -/

namespace Sys2Proof.Machine

/-- How a claim may treat a result (spec/60_exceptions.md R209). -/
inductive ResultClass where
  | normal
  | refusal
  | streamFault
  deriving DecidableEq, Repr

/-- The class of a result kind (spec/60_exceptions.md R209). -/
def ResultKind.classOf : ResultKind → ResultClass
  | .ok => .normal
  | .inProgress => .normal
  | .noData => .normal
  | .noFreeSlot => .normal
  | .invalidAddress => .normal
  | .invalidFormat => .normal
  | .invalidCrc => .normal
  | .sendFailure => .normal
  | .notInitialized => .refusal
  | .malformedHeader => .streamFault
  | .initRejected => .normal
  | .refused => .refusal

/-- No result delivered so far is a fault of the stream: a run with a `MalformedHeader` is never good
(spec/60_exceptions.md R195, R209; log 14). -/
def State.streamGood (s : State) : Bool := s.results.all fun r => decide (r.kind.classOf ≠ .streamFault)

/-- The FIFO holds whole frames with legal lengths and nothing else, `fuel` of them at most. -/
def framesWhole : Nat → List Byte → Bool
  | 0, bytes => bytes.isEmpty
  | fuel + 1, bytes =>
      bytes.isEmpty ||
        (decide (headerBytes ≤ bytes.length) &&
          (let n := (headerFields (bytes.take headerBytes)).len.toNat
           decide (n ≤ maxFramePayload) && decide (headerBytes + n ≤ bytes.length) &&
             framesWhole fuel (bytes.drop (headerBytes + n))))

/-- The transport's duty: a frame's bytes are pending all together (spec/70_reset_and_hazards.md R216). -/
def wholeFrames (bytes : List Byte) : Bool := framesWhole bytes.length bytes

/-- INV-UNIQ: at most one slot assembles a given `function_id` (spec/10_state.md R27). -/
def SlotsUnique (s : State) : Prop :=
  ∀ i j, i < s.slots.length → j < s.slots.length → (s.slot i).inProgress = true → (s.slot j).inProgress = true →
    (s.slot i).fn = (s.slot j).fn → i = j

/-- INV-LEN: `acc_len <= 256` for every slot (spec/10_state.md R27). -/
def SlotsBounded (s : State) : Prop := ∀ sl ∈ s.slots, sl.accLen.toNat ≤ maxPacketPayload

/-- INV-IDLE: an `Idle` slot has `acc_len = 0` (spec/10_state.md R27, decision D22). -/
def IdleSlotsEmpty (s : State) : Prop := ∀ sl ∈ s.slots, sl.tag = .idle → sl.accLen = 0

/-- Every slot buffer is in the canonical form and lists offsets 0 to 255 only. -/
def BuffersCanonical (s : State) : Prop := ∀ sl ∈ s.slots, sl.buf.wf = true ∧ sl.buf.bounded = true

/-- The bytes `0 ..< acc_len` of an assembling slot were written (spec/10_state.md R26). -/
def BuffersWritten (s : State) : Prop :=
  ∀ sl ∈ s.slots, sl.inProgress = true → ∀ a, a < sl.accLen.toNat → (sl.buf.read a).isSome = true

/-- The two binding bits are always equal (spec/40_host_operations.md R102). -/
def BindingAgrees (s : State) : Prop := s.txBound = s.rxBound

/-- `op` was accepted: it passed the two tests of spec/41_fragmenter.md R121, and its operands are held. -/
def SendAccepted (s : State) (op : SendOp) : Prop :=
  s.sendOp = some op ∧ s.txBound = true ∧
  op.length.toNat ≤ maxPacketPayload ∧ op.payload.length = op.length.toNat

/-- The fragmenter's registers between two frames of `op`: the loop invariant of spec/41_fragmenter.md R121 and
what each phase means (R120). -/
def SendProgress (s : State) (op : SendOp) : Prop :=
  s.fParam = op.param ∧
  s.fOff.toNat = min (8 * s.fSeq.toNat) op.length.toNat ∧
  s.fSeq.toNat = ceil8 s.fOff.toNat ∧
  s.fSeq.toNat ≤ 32 ∧
  s.fChk = checksum8 s.cfg.checksum (chkInit s.cfg.checksum) (op.payload.take s.fOff.toNat) ∧
  (s.fPhase = .data → s.fOff.toNat < op.length.toNat) ∧
  (s.fPhase = .finish → s.fOff.toNat = op.length.toNat)

/-- The send side: held operands are accepted ones; between two frames some are held and the registers are in
progress; no state between steps is in `F_START`, which EMIT_START enters and leaves in one step
(spec/41_fragmenter.md R121). -/
def SendConsistent (s : State) : Prop :=
  (∀ op, s.sendOp = some op → SendAccepted s op) ∧ s.fPhase ≠ .start ∧
  (s.fPhase ≠ .idle → ∃ op, s.sendOp = some op ∧ SendProgress s op)

/-- The receive side: an invocation is in progress exactly when its operand is held, on a bound block; after the
fetch the frame register holds a whole frame, after the filter one for the local address
(spec/42_frame_parser.md R135, spec/44_reassembler.md R162). -/
def ReceiveConsistent (s : State) : Prop :=
  (s.rPhase = .idle ↔ s.recvOp = none) ∧
  (s.rPhase ≠ .idle → s.rxBound = true) ∧
  (s.rPhase = .filter ∨ s.rPhase = .dispatch →
    s.fr.fields.len.toNat ≤ maxFramePayload ∧ s.fr.payload.length = s.fr.fields.len.toNat) ∧
  (s.rPhase = .dispatch → s.recvOp = some s.fr.fields.dst)

/-- The operations of the receive side: RECEIVE_ONE_FRAME and the four frame rows (spec/20_memory.md R68). -/
def receiveSide : Instr → Bool
  | .startFrame _ _ => true
  | .endFrame _ _ => true
  | .dataFrame _ _ _ => true
  | .reservedLen _ _ => true
  | .receiveOneFrame _ => true
  | .init _ _ => false
  | .sendPacket _ => false
  | .reservedCmd => false

/-- The results of one operation, in order. -/
def State.resultsOf (s : State) (op : HostOp) : List HostResult := s.results.filter fun r => decide (r.op = op)

/-- The result of a RECEIVE_ONE_FRAME that carries no packet. -/
def receiveResult (kind : ResultKind) : HostResult := ⟨.receive, kind, none⟩

/-- The packet a SEND_PACKET asks for. -/
def packetOf (op : SendOp) : Packet := ⟨op.fn, op.src, op.dst, op.param, op.payload⟩

/-- The invariant of the machine. -/
structure State.Inv (s : State) : Prop where
  legal : s.legal = true
  unique : SlotsUnique s
  bounded : SlotsBounded s
  idleEmpty : IdleSlotsEmpty s
  canonical : BuffersCanonical s
  written : BuffersWritten s
  binding : BindingAgrees s
  send : SendConsistent s
  receive : ReceiveConsistent s

end Sys2Proof.Machine
end

