-- ==== Sys2Proof/Certificates/Slice0/Obligations.lean ====
section
/-! DEFINITION. The statements for the provers. Each docstring names what of spec/ it formalises; where it rests on
a decision of the spec or on a choice of the model it says so and names the decision or the log entry. -/

open Sys2Proof Sys2Proof.Machine

/-! ## Encoding -/

/-- Decoding the encoding of a well-formed operation gives it back, for every row, every operand and every legal
sentinel pair; and a frame ends where its length field says, what follows it in the stream being left for the next
frame (spec/30_encoding.md sections 1 and 4; the layout is the spec's decision D3 to D5, log 3). -/
def Obligations.DecodeEncodeAgree : Prop :=
  ∀ (p : Params) (i : Instr), p.legal = true → i.wf p = true →
    decode p (encode p i) = .ok i ∧
    ∀ bytes rest : List Byte, encode p i = .frame bytes → decodeFrame p (bytes ++ rest) = .ok (i, rest)

/-- The header layout is lossless both ways: every field is read back, and every 5-byte header is the encoding of
its fields, so every bit is used (spec/30_encoding.md section 4; decision D3 to D5, log 3). -/
def Obligations.HeaderLayoutIsLossless : Prop :=
  (∀ (param : Byte) (f : Fields),
    headerParam (encodeHeader param f) = param ∧ headerFields (encodeHeader param f) = f) ∧
  (∀ h : List Byte, h.length = headerBytes → encodeHeader (headerParam h) (headerFields h) = h)

/-- Words written out from the spec's layout decode to the operations they stand for
(spec/95_test_vectors.md section 2.1, vectors E1, E2, E3, K4; decision D3 to D5, log 3). -/
def Obligations.WrittenWordsDecode : Prop :=
  decode .default (.frame [0xFE, 0x01, 0xC1, 0x10, 0x80]) =
      .ok (.startFrame ⟨0x01, 0x02, 0x43, 0, 0, 0, false, true⟩ []) ∧
  decode .default (.frame [0x00, 0x01, 0xC1, 0x10, 0x88, 0, 1, 2, 3, 4, 5, 6, 7]) =
      .ok (.dataFrame 0x00 ⟨0x01, 0x02, 0x43, 0, 8, 0, false, true⟩ [0, 1, 2, 3, 4, 5, 6, 7]) ∧
  decode .default (.frame [0xFF, 0x01, 0xC1, 0x10, 0x83, 0x07, 0xC9, 0x12]) =
      .ok (.endFrame ⟨0x01, 0x02, 0x43, 0, 3, 0, false, true⟩ [0x07, 0xC9, 0x12]) ∧
  decode .default (.frame [0x00, 0x01, 0xC1, 0x10, 0x89]) =
      .ok (.reservedLen 0x00 ⟨0x01, 0x02, 0x43, 0, 9, 0, false, true⟩)

/-- The role of a frame is decided by its `parameter` alone, START before END, and every value has a role; a frame
of a legal length is the operation of its role; with the default sentinels the 254 values 0x00 to 0xFD are DATA
(spec/30_encoding.md R77). -/
def Obligations.RoleIsDecidedByParameterAlone : Prop :=
  (∀ (p : Params) (param : Byte),
    role p param =
      if param = p.paramStart then .start else if param = p.paramEnd then .finish else .data) ∧
  (∀ (p : Params) (fr : FrameReg), fr.fields.len.toNat ≤ maxFramePayload →
    frameInstr p fr =
      if fr.param = p.paramStart then .startFrame fr.fields fr.payload
      else if fr.param = p.paramEnd then .endFrame fr.fields fr.payload
      else .dataFrame fr.param fr.fields fr.payload) ∧
  (∀ param : Byte, role .default param = .data ↔ param.toNat ≤ 0xFD)

/-! ## A step runs the decoded operation -/

/-- The host's step runs the operation its command decodes to, the command taken from the queue; a command whose
unit is busy waits, nothing changing but the use of the event (spec/00_scope.md section 5, agents;
spec/40_host_operations.md section 3; decision D30; the model's conventions, log 1, log 2, log 16). -/
def Obligations.HostStepRunsTheDecodedCommand : Prop :=
  ∀ (s : State) (c : HostCmd) (cs : List HostCmd) (i : Instr),
    s.legal = true → s.nextEvent = .host → s.hostQueue = c :: cs → decodeCommand c = .ok i →
    (s.unitFree i = true → step s = exec i { s.afterEvent with hostQueue := cs }) ∧
    (s.unitFree i = false → step s = .next s.afterEvent)

/-- The fragmenter's and the reassembler's step run the operation that is in progress: the SEND_PACKET that is
held; the operation decoded from the frame register where a frame passed the filter or a header declares a
reserved length; else the next step of the RECEIVE_ONE_FRAME. The frame's own row and the invocation give the
same there (spec/00_scope.md section 5, agents; spec/44_reassembler.md section 1; log 1). The operands are the held
ones (spec/10_state.md section 3; log 22). That a reserved length is a step of its own, from phase `payload`, after
the step of the header read, is the model's choice, log 18. -/
def Obligations.UnitStepsRunTheHeldOperation : Prop :=
  (∀ (s : State) (op : SendOp), s.legal = true → s.nextEvent = .fragmenter → s.sendOp = some op →
    step s = exec (.sendPacket op) s.afterEvent) ∧
  (∀ (s : State) (a : Addr), s.legal = true → s.nextEvent = .reassembler → s.recvOp = some a →
    step s = exec (if s.rPhase = .dispatch ∨ (s.rPhase = .payload ∧ maxFramePayload < s.fr.fields.len.toNat)
      then frameInstr s.cfg s.fr else .receiveOneFrame a) s.afterEvent ∧
    step s = exec (.receiveOneFrame a) s.afterEvent)

/-- The fetch reads from the FIFO exactly the frame the decoder reads, and leaves the bytes after it: a frame of
a legal length is in the frame register after two steps, a header with a reserved length after one, with no result
delivered yet (spec/42_frame_parser.md; the layout is decision D3 to D5, the two reads decision D15). That a
reserved length waits in phase `payload`, its test being in the step after the header read, is the model's choice,
log 18. -/
def Obligations.FetchReadsTheDecodedFrame : Prop :=
  ∀ (s : State) (a : Addr) (i : Instr) (rest : List Byte) (more : List RxAnswer),
    s.rPhase = .header → s.rxAnswers = .serve :: .serve :: more →
    decodeFrame s.cfg s.rxFifo = .ok (i, rest) →
    ∃ t, exec (.receiveOneFrame a) s = .next t ∧ t.slots = s.slots ∧ t.results = s.results ∧
      ((maxFramePayload < t.fr.fields.len.toNat ∧ t.rPhase = .payload ∧
          frameInstr t.cfg t.fr = i ∧ t.rxFifo = rest) ∨
        (t.fr.fields.len.toNat ≤ maxFramePayload ∧
          ∃ u, exec (.receiveOneFrame a) t = .next u ∧ u.rPhase = .filter ∧ frameInstr u.cfg u.fr = i ∧
            u.rxFifo = rest ∧ u.slots = s.slots ∧ u.results = s.results))

/-- A table word placed for the next step is what the next step runs: a command runs on the very state it was
placed into, both units being free, a frame on that state with an invocation in progress for it (the model's
convention, log 2). -/
def Obligations.PlacedWordRunsNext : Prop :=
  ∀ (s : State) (nbits w : Nat) (i : Instr),
    s.legal = true → s.cfg = .default → s.fPhase = .idle → s.sendOp = none → s.rPhase = .idle →
    decodeTableWord nbits w = some i →
    (nbits ≤ 8 → step (s.withFetchWord nbits w) = exec i s) ∧
    (nbits = 40 → step (s.withFetchWord nbits w) = exec i (s.withFetchWord nbits w).afterEvent)

/-- A configuration with illegal sentinels, or with no slot, is no instance of the block: no step is given a
meaning there, and the refusal `illegalConfiguration` is given nowhere else. The statement is about that reason
only: under a legal configuration `step` can still refuse, with the reason `illFormedCommand` (log 20)
(spec/70_reset_and_hazards.md section 1; spec/93_implementation_defined.md U6; log 21). -/
def Obligations.IllegalConfigurationIsRefused : Prop :=
  ∀ s : State,
    (s.cfg.paramStart = s.cfg.paramEnd ∨ s.cfg.paramStart.toNat ≤ 31 ∨ s.cfg.paramEnd.toNat ≤ 31 ∨ s.slots = []) ↔
      step s = .refused .illegalConfiguration

/-! ## Reset -/

/-- After reset every slot is `Idle`: in the reset state and after a reset event in any state
(spec/10_state.md R37; that there is a reset event is decision D28). -/
def Obligations.ResetLeavesEverySlotIdle : Prop :=
  (∀ sl ∈ State.reset.slots, sl.inProgress = false) ∧
  (∀ s : State, s.legal = true → s.nextEvent = .reset →
    ∃ t, step s = .next t ∧ t.slots.length = s.slots.length ∧ ∀ sl ∈ t.slots, sl.inProgress = false)

/-- A reset event clears the lengths, the bindings and the phases, frees the lock and drops an operation in flight
without a result; the transport, the host and the parameters stay (spec/10_state.md section 5,
spec/70_reset_and_hazards.md section 1; decisions D23, D27, D28; log 9). -/
def Obligations.ResetEventDropsOperationsAndKeepsTheTransport : Prop :=
  ∀ s : State, s.legal = true → s.nextEvent = .reset →
    ∃ t, step s = .next t ∧ (∀ sl ∈ t.slots, sl.accLen = 0) ∧ t.txBound = false ∧ t.rxBound = false ∧
      t.fPhase = .idle ∧ t.sendOp = none ∧ t.rPhase = .idle ∧ t.recvOp = none ∧ t.lockHeld = false ∧
      t.results = s.results ∧ t.rxFifo = s.rxFifo ∧ t.txCalls = s.txCalls ∧ t.hostQueue = s.hostQueue ∧
      t.cfg = s.cfg ∧ t.txAnswers = s.txAnswers ∧ t.rxAnswers = s.rxAnswers

/-! ## Invariants -/

/-- The invariant holds in the reset state (spec/10_state.md section 5; the reset values the spec leaves
unspecified are the model's, log 7, log 8). -/
def Obligations.ResetStateMeetsTheInvariant : Prop := State.reset.Inv

/-- Every step of every agent keeps the invariant: unique streams, lengths, empty idle slots, canonical and
written buffers, equal binding bits, the fragmenter's loop invariant, a whole frame in the frame register
(spec/10_state.md section 2, spec/41_fragmenter.md section 3, spec/43_slot_controller.md section 3; the registers
are decision D10, the idle length decision D22, the unwritten bytes log 8; that held operands can wait in `F_IDLE`
for EMIT_START is the model's, log 19). -/
def Obligations.StepKeepsTheInvariant : Prop :=
  ∀ s t : State, s.Inv → step s = .next t → t.Inv

/-- At most one slot assembles a given stream, at reset and after every step of any state that has it so
(spec/10_state.md section 2, INV-UNIQ; spec/43_slot_controller.md section 3). -/
def Obligations.StreamsStayUnique : Prop :=
  SlotsUnique State.reset ∧ ∀ s t : State, SlotsUnique s → step s = .next t → SlotsUnique t

/-- Slot lengths stay at most 256, an idle slot stays empty, and the buffers stay in the canonical form with offsets
0 to 255: each by itself, from any state that has it (spec/10_state.md section 2, INV-LEN, INV-IDLE; decision D22;
the canonical form is the model's, log 8). -/
def Obligations.SlotRangesAndBuffersAreKept : Prop :=
  ∀ s t : State, step s = .next t →
    (SlotsBounded s → SlotsBounded t) ∧ (IdleSlotsEmpty s → IdleSlotsEmpty t) ∧
    (BuffersCanonical s → BuffersCanonical t)

/-- From a state with the invariant no step faults (spec/10_state.md section 2; the faults are the model's,
log 8, log 24). -/
def Obligations.NoFaultFromTheInvariant : Prop :=
  ∀ (s : State) (r : Fault), s.Inv → step s ≠ .fault r

/-- No step changes the parameters or the number of slots (spec/00_scope.md section 4: "a value fixed before reset
that no operation changes"). -/
def Obligations.ParametersNeverChange : Prop :=
  ∀ s t : State, step s = .next t → t.cfg = s.cfg ∧ t.slots.length = s.slots.length

/-! ## INIT and the reserved command -/

/-- INIT binds both functions or, with one missing, neither and a previous binding stays; nothing else changes
but the delivered result (spec/40_host_operations.md section 2; decision D24). -/
def Obligations.InitBindsBothOrNeither : Prop :=
  ∀ s : State,
    exec (.init true true) s = .next ({ s with txBound := true, rxBound := true }.deliver .init .ok none) ∧
    exec (.init true false) s = .next (s.deliver .init .initRejected none) ∧
    exec (.init false true) s = .next (s.deliver .init .initRejected none) ∧
    exec (.init false false) s = .next (s.deliver .init .initRejected none)

/-- The reserved command code is answered `Refused` and changes nothing (spec/40_host_operations.md section 3;
decision D13). -/
def Obligations.ReservedCommandIsAnsweredRefused : Prop :=
  ∀ s : State, exec .reservedCmd s = .next { s with results := s.results ++ [⟨.reserved, .refused, none⟩] }

/-- The binding bits are changed only by a successful INIT of the host and by reset (spec/10_state.md section 3:
"no operation clears them"). -/
def Obligations.BindingChangesOnlyByInitAndReset : Prop :=
  ∀ s t : State, step s = .next t → (t.txBound ≠ s.txBound ∨ t.rxBound ≠ s.rxBound) →
    (s.nextEvent = .reset ∧ t.txBound = false ∧ t.rxBound = false) ∨
    (s.nextEvent = .host ∧ t.txBound = true ∧ t.rxBound = true ∧
      ∃ c cs, s.hostQueue = c :: cs ∧ decodeCommand c = .ok (.init true true))

/-! ## SEND_PACKET -/

/-- SEND_PACKET before initialisation answers `NotInitialized`, with more than 256 bytes `Refused`, in this order;
nothing is transmitted (spec/40_host_operations.md sections 2 and 3; decisions D23, D32). -/
def Obligations.SendIsTurnedAwayUntouched : Prop :=
  ∀ (op : SendOp) (s : State), s.fPhase = .idle → s.sendOp = none →
    (s.txBound = false →
      exec (.sendPacket op) s = .next { s with results := s.results ++ [⟨.send, .notInitialized, none⟩] }) ∧
    (s.txBound = true → maxPacketPayload < op.length.toNat →
      exec (.sendPacket op) s = .next { s with results := s.results ++ [⟨.send, .refused, none⟩] })

/-- A SEND_PACKET of at most 256 bytes on a bound block is accepted: its operands are held and no register is
written. Its first frame is the START frame, in one step of the fragmenter: that step sets up the registers, saves
the packet's own `param`, makes one call with the START sentinel in the `parameter` field, 5 bytes, for every
packet, the empty one included, and, where the call answers ok, moves the phase on (spec/41_fragmenter.md sections 2
and 3; the registers are decision D10; the acceptance as the host's step, before EMIT_START, is the model's,
log 19). -/
def Obligations.SendBeginsWithAStartFrame : Prop :=
  ∀ (op : SendOp) (s : State) (bytes : List Byte),
    bytes = encodeFrame s.cfg s.cfg.paramStart op.src op.dst op.fn [] →
    (s.fPhase = .idle → s.sendOp = none → s.txBound = true → op.length.toNat ≤ maxPacketPayload →
      exec (.sendPacket op) s = .next { s with sendOp := some op }) ∧
    ((s.fPhase = .idle ∧ s.sendOp = some op) ∨ s.fPhase = .start →
      bytes.length = 5 ∧
      (∃ u, exec (.sendPacket op) s = .next u ∧ u.txCalls = s.txCalls ++ [⟨bytes, s.nextTxAnswer⟩] ∧
        u.fParam = op.param ∧ u.fSeq = 0 ∧ u.fOff = 0 ∧ u.fChk = chkInit s.cfg.checksum) ∧
      (s.nextTxAnswer = .ok → exec (.sendPacket op) s = .next { s.transmit bytes with
        fParam := op.param, fSeq := 0, fOff := 0, fChk := chkInit s.cfg.checksum
        fPhase := if 0 < op.length.toNat then .data else .finish }))

/-- One data frame: the chunk at `f_off` under sequence number `f_seq`; then the checksum folds the chunk, the
sequence number grows by one and the offset by the chunk's length, and nothing else changes
(spec/41_fragmenter.md section 2; the registers are decision D10). -/
def Obligations.EachDataFrameCarriesTheNextChunk : Prop :=
  ∀ (op : SendOp) (s : State) (n : Nat) (chunk : List Byte),
    s.fPhase = .data → s.fOff.toNat < op.length.toNat → s.nextTxAnswer = .ok →
    n = min 8 (op.length.toNat - s.fOff.toNat) → chunk = (op.payload.drop s.fOff.toNat).take n →
    exec (.sendPacket op) s = .next { s.transmit (encodeFrame s.cfg s.fSeq op.src op.dst op.fn chunk) with
      fChk := checksum8 s.cfg.checksum s.fChk chunk
      fSeq := s.fSeq + 1
      fOff := s.fOff + BitVec.ofNat 9 n
      fPhase := if s.fOff.toNat + n < op.length.toNat then .data else .finish }

/-- The END frame carries the count, the checksum and the saved parameter, and with its acceptance the operation
ends `OK` (spec/41_fragmenter.md section 2; the registers are decision D10). -/
def Obligations.SendEndsWithAnEndFrame : Prop :=
  ∀ (op : SendOp) (s : State), s.fPhase = .finish → s.nextTxAnswer = .ok →
    exec (.sendPacket op) s = .next { s.transmit
        (encodeFrame s.cfg s.cfg.paramEnd op.src op.dst op.fn [s.fSeq, s.fChk, s.fParam]) with
      fPhase := .idle, sendOp := none, results := s.results ++ [⟨.send, .ok, none⟩] }

/-- In every phase a transmit error ends the send with `SendFailure`: the call is recorded, no other is made. Where
it is the START frame's, the registers that step begins with were set up (spec/41_fragmenter.md sections 2 and 3;
decision D37; the registers are decision D10; that they keep their values afterwards is the model's, log 13). -/
def Obligations.TransmitErrorEndsTheSend : Prop :=
  ∀ (op : SendOp) (s : State) (n : Nat), s.nextTxAnswer = .error n →
    ((s.fPhase = .idle ∧ s.sendOp = some op) ∨ s.fPhase = .start →
      exec (.sendPacket op) s = .next ({ s.transmit (startBytes s.cfg op) with
        fParam := op.param, fSeq := 0, fOff := 0, fChk := chkInit s.cfg.checksum }.finishSend .sendFailure)) ∧
    (s.fPhase = .data → s.fOff.toNat < op.length.toNat →
      exec (.sendPacket op) s =
        .next ((s.transmit (dataBytes s.cfg op s.fSeq s.fOff.toNat)).finishSend .sendFailure)) ∧
    (s.fPhase = .finish →
      exec (.sendPacket op) s =
        .next ((s.transmit (endBytes s.cfg op s.fSeq s.fChk s.fParam)).finishSend .sendFailure))

/-- If every call answers ok, a whole SEND_PACKET makes exactly the calls of the packet's frames, in order,
`L + 5 * ceil8(L) + 13` bytes on the wire, ends `OK` with the fragmenter idle, and leaves the slots, the FIFO, the
frame register and the lock alone (spec/41_fragmenter.md section 3, which derives it from the pseudocode). -/
def Obligations.SuccessfulSendPutsThePacketOnTheWire : Prop :=
  ∀ (op : SendOp) (s : State) (rest : List TxAnswer),
    s.fPhase = .idle → s.sendOp = none → s.txBound = true → op.length.toNat ≤ maxPacketPayload →
    op.payload.length = op.length.toNat →
    s.txAnswers = List.replicate (ceil8 op.length.toNat + 2) .ok ++ rest →
    ∃ t, callSend op s = .next t ∧
      t.txCalls = s.txCalls ++ (packetFrames s.cfg op).map (fun b => ⟨b, .ok⟩) ∧
      t.txLog = s.txLog ++ packetFrames s.cfg op ∧
      t.txWire.length = s.txWire.length + op.length.toNat + 5 * ceil8 op.length.toNat + 13 ∧
      t.results = s.results ++ [⟨.send, .ok, none⟩] ∧ t.fPhase = .idle ∧ t.sendOp = none ∧
      t.txAnswers = rest ∧ t.slots = s.slots ∧ t.rxFifo = s.rxFifo ∧ t.fr = s.fr ∧ t.lockHeld = s.lockHeld

/-- If call number `k` (from 0) is the first to answer error, the calls made are exactly the first `k + 1` of the
packet's frames and the result is `SendFailure`; of the last frame a prefix left the block
(spec/41_fragmenter.md section 3; the prefix is spec/93_implementation_defined.md U7, log 11). -/
def Obligations.FailedSendStopsAtTheFirstError : Prop :=
  ∀ (op : SendOp) (s : State) (k n : Nat) (rest : List TxAnswer),
    s.fPhase = .idle → s.sendOp = none → s.txBound = true → op.length.toNat ≤ maxPacketPayload →
    op.payload.length = op.length.toNat → k < ceil8 op.length.toNat + 2 →
    s.txAnswers = List.replicate k .ok ++ .error n :: rest →
    ∃ t, callSend op s = .next t ∧
      t.txCalls.map TxCall.bytes = s.txCalls.map TxCall.bytes ++ (packetFrames s.cfg op).take (k + 1) ∧
      t.txLog = s.txLog ++ (packetFrames s.cfg op).take k ∧
      t.txWire = s.txWire ++ ((packetFrames s.cfg op).take k).flatten ++
        ((packetFrames s.cfg op).getD k []).take n ∧
      t.results = s.results ++ [⟨.send, .sendFailure, none⟩] ∧ t.fPhase = .idle ∧ t.txAnswers = rest ∧
      t.slots = s.slots

/-- The frame count law: the number of data frames emitted is `ceil(L/8)`, at most 32, and the END frame, the last
one, reports exactly that count (spec/41_fragmenter.md R118). -/
def Obligations.FrameCountLaw : Prop :=
  ∀ (op : SendOp) (s : State) (rest : List TxAnswer),
    s.cfg.legal = true → s.fPhase = .idle → s.sendOp = none → s.txBound = true →
    op.length.toNat ≤ maxPacketPayload → op.payload.length = op.length.toNat →
    s.txAnswers = List.replicate (ceil8 op.length.toNat + 2) .ok ++ rest →
    ∃ t, callSend op s = .next t ∧
      ((t.txLog.drop s.txLog.length).filter fun b => decide (role s.cfg (headerParam b) = .data)).length =
        (op.length.toNat + 7) / 8 ∧
      (op.length.toNat + 7) / 8 ≤ 32 ∧
      ∃ e, (t.txLog.drop s.txLog.length).getLast? = some e ∧ headerParam e = s.cfg.paramEnd ∧
        (e.getD headerBytes 0).toNat = (op.length.toNat + 7) / 8

/-- The empty packet is exactly two frames: START, then END with payload `[0, CHK_INIT, param]`
(spec/41_fragmenter.md R117). -/
def Obligations.EmptyPacketIsTwoFrames : Prop :=
  ∀ (op : SendOp) (s : State) (rest : List TxAnswer),
    s.fPhase = .idle → s.sendOp = none → s.txBound = true → op.length = 0 → s.txAnswers = .ok :: .ok :: rest →
    ∃ t, callSend op s = .next t ∧ t.results = s.results ++ [⟨.send, .ok, none⟩] ∧
      t.txLog = s.txLog ++
        [encodeFrame s.cfg s.cfg.paramStart op.src op.dst op.fn [],
         encodeFrame s.cfg s.cfg.paramEnd op.src op.dst op.fn [0, chkInit s.cfg.checksum, op.param]]

/-- The fragmenter does not touch the slot table, takes no lock, reads no byte of `rx` and does not depend on any
of them: with the receive side exchanged for any other, each of its steps does the same and leaves that receive
side as it was (spec/41_fragmenter.md R119). -/
def Obligations.SendIsIndependentOfTheReceiveSide : Prop :=
  ∀ (op : SendOp) (s t : State) (slots : List Slot) (rxFifo : List Byte) (rxBound lockHeld : Bool)
    (rPhase : RPhase) (recvOp : Option Addr) (fr : FrameReg) (rxAnswers : List RxAnswer) (rxDraws : Nat),
    exec (.sendPacket op) s = .next t →
    exec (.sendPacket op) { s with
        slots := slots, rxFifo := rxFifo, rxBound := rxBound, lockHeld := lockHeld, rPhase := rPhase,
        recvOp := recvOp, fr := fr, rxAnswers := rxAnswers, rxDraws := rxDraws } =
      .next { t with
        slots := slots, rxFifo := rxFifo, rxBound := rxBound, lockHeld := lockHeld, rPhase := rPhase,
        recvOp := recvOp, fr := fr, rxAnswers := rxAnswers, rxDraws := rxDraws }

/-- Whatever the transport answers, a SEND_PACKET ends: with one result, the fragmenter idle, and at most 34
`transmit` calls (spec/70_reset_and_hazards.md section 3, progress; spec/41_fragmenter.md section 3). -/
def Obligations.SendAlwaysEnds : Prop :=
  ∀ (op : SendOp) (s : State), s.fPhase = .idle → s.sendOp = none →
    ∃ t k, callSend op s = .next t ∧ t.fPhase = .idle ∧ t.sendOp = none ∧
      t.results = s.results ++ [⟨.send, k, none⟩] ∧
      (k = .ok ∨ k = .sendFailure ∨ k = .notInitialized ∨ k = .refused) ∧
      s.txCalls.length ≤ t.txCalls.length ∧ t.txCalls.length ≤ s.txCalls.length + 34

/-- Only the fragmenter's step calls `transmit`, at most once a step, with 5 to 13 bytes
(spec/20_memory.md sections 1 and 3; one call per frame is decision D14; that the host's step, which accepts the
operation, makes no call is log 19). -/
def Obligations.OneFramePerTransmitCall : Prop :=
  ∀ s t : State, step s = .next t → t.txCalls ≠ s.txCalls →
    s.nextEvent = .fragmenter ∧
    ∃ bytes answer, t.txCalls = s.txCalls ++ [⟨bytes, answer⟩] ∧ 5 ≤ bytes.length ∧ bytes.length ≤ 13

/-! ## RECEIVE_ONE_FRAME: fetch and filter -/

/-- RECEIVE_ONE_FRAME before initialisation answers `NotInitialized` and touches nothing; after it the invocation
begins with its operand held (spec/40_host_operations.md section 2; decision D23; the held operand is log 22). That
it begins in a step of its own, which sets the operand and the phase and fetches nothing yet, is the model's choice,
log 19. -/
def Obligations.ReceiveIsTurnedAwayOrBegins : Prop :=
  ∀ (a : Addr) (s : State), s.rPhase = .idle → s.recvOp = none →
    (s.rxBound = false →
      exec (.receiveOneFrame a) s = .next { s with results := s.results ++ [receiveResult .notInitialized] }) ∧
    (s.rxBound = true →
      exec (.receiveOneFrame a) s = .next { s with recvOp := some a, rPhase := .header })

/-- The header read: 5 bytes into the frame register and out of the FIFO; with fewer pending, or where the
transport fails, `NoData` with the FIFO unchanged (spec/42_frame_parser.md; decision D15; a failing transport is
spec/93_implementation_defined.md U8, log 12). Two clauses are the model's choice: every 5-byte header, one with a
reserved length too, leads to phase `payload` with no result yet (log 18), and the payload part of the frame
register keeps its value in this step (log 13). -/
def Obligations.HeaderReadTakesFiveBytesOrNone : Prop :=
  ∀ (a : Addr) (s : State), s.rPhase = .header →
    (s.nextRxAnswer = .serve → 5 ≤ s.rxFifo.length →
      exec (.receiveOneFrame a) s = .next { s.afterReceive 5 with
        rxFifo := s.rxFifo.drop 5
        fr := { s.fr with param := headerParam (s.rxFifo.take 5), fields := headerFields (s.rxFifo.take 5) }
        rPhase := .payload }) ∧
    (s.nextRxAnswer = .fail ∨ s.rxFifo.length < 5 →
      exec (.receiveOneFrame a) s = .next ({ s.afterReceive 5 with rxFifo := s.rxFifo }.finishReceive .noData none))

/-- The payload read: none for length 0, exactly the declared 1 to 8 bytes, or, with fewer pending or where the
transport fails, `NoData` with the FIFO unchanged and the header lost (spec/42_frame_parser.md; decisions D15, D16;
that it can fail although enough bytes are pending is spec/93_implementation_defined.md U8, log 12). -/
def Obligations.PayloadReadTakesTheDeclaredLength : Prop :=
  ∀ (a : Addr) (s : State) (n : Nat), s.rPhase = .payload → n = s.fr.fields.len.toNat → n ≤ 8 →
    (n = 0 → exec (.receiveOneFrame a) s = .next { s with fr := { s.fr with payload := [] }, rPhase := .filter }) ∧
    (1 ≤ n → s.nextRxAnswer = .serve → n ≤ s.rxFifo.length →
      exec (.receiveOneFrame a) s = .next { s.afterReceive n with
        rxFifo := s.rxFifo.drop n, fr := { s.fr with payload := s.rxFifo.take n }, rPhase := .filter }) ∧
    (1 ≤ n → s.nextRxAnswer = .fail ∨ s.rxFifo.length < n →
      exec (.receiveOneFrame a) s = .next ({ s.afterReceive n with rxFifo := s.rxFifo }.finishReceive .noData none))

/-- A frame for another node is reported as `InvalidAddress` and mutates no slot: it is consumed whole, whatever
its role, with every slot busy or not, and with the lock held by another or not; a frame for this node passes on
to step C with nothing else changed (spec/44_reassembler.md R162). -/
def Obligations.FilterDropsForeignFrames : Prop :=
  (∀ (a : Addr) (s : State) (i : Instr) (rest : List Byte) (more : List RxAnswer) (f : Fields),
    s.rPhase = .idle → s.rxBound = true → s.rxAnswers = .serve :: .serve :: more →
    decodeFrame s.cfg s.rxFifo = .ok (i, rest) → f = headerFields (s.rxFifo.take headerBytes) →
    f.len.toNat ≤ maxFramePayload → f.dst ≠ a →
    ∃ t, callReceive a s = .next t ∧ t.results = s.results ++ [receiveResult .invalidAddress] ∧
      t.slots = s.slots ∧ t.rxFifo = rest ∧ t.lockHeld = s.lockHeld ∧ t.rPhase = .idle) ∧
  (∀ (a : Addr) (s : State), s.rPhase = .filter → s.fr.fields.dst = a →
    exec (.receiveOneFrame a) s = .next { s with rPhase := .dispatch })

/-- A header that declares 9 to 15 bytes ends the invocation with `MalformedHeader`: 5 bytes are consumed, no slot
is touched, and the run is no good run any more. The row itself ends the invocation in every state and changes
nothing else (spec/42_frame_parser.md; decision D17; log 14). -/
def Obligations.MalformedHeaderConsumesFiveBytes : Prop :=
  (∀ (param : Byte) (f : Fields) (s : State),
    exec (.reservedLen param f) s = .next { s with
      results := s.results ++ [receiveResult .malformedHeader], rPhase := .idle, recvOp := none }) ∧
  ∀ (a : Addr) (s : State) (more : List RxAnswer),
    s.rPhase = .idle → s.rxBound = true → s.rxAnswers = .serve :: more → 5 ≤ s.rxFifo.length →
    maxFramePayload < (headerFields (s.rxFifo.take 5)).len.toNat →
    ∃ t, callReceive a s = .next t ∧ t.results = s.results ++ [receiveResult .malformedHeader] ∧
      t.rxFifo = s.rxFifo.drop 5 ∧ t.slots = s.slots ∧ t.lockHeld = s.lockHeld ∧ t.streamGood = false

/-- Where the transport keeps frames whole, an invocation leaves whole frames, never reports a malformed header,
and reports `NoData` exactly when nothing is pending (spec/70_reset_and_hazards.md section 2, whole-frame
availability; decisions D16, D17). -/
def Obligations.WholeFramesStayWhole : Prop :=
  ∀ (a : Addr) (s t : State) (more : List RxAnswer),
    s.rPhase = .idle → s.rxBound = true → s.lockHeld = false → s.rxAnswers = .serve :: .serve :: more →
    wholeFrames s.rxFifo = true → callReceive a s = .next t →
    wholeFrames t.rxFifo = true ∧
    ∃ r, t.results = s.results ++ [r] ∧ r.kind ≠ .malformedHeader ∧ (r.kind = .noData ↔ s.rxFifo = [])

/-! ## RECEIVE_ONE_FRAME: step C -/

/-- START takes the slot that already assembles the stream, the lowest such, even where a lower slot is idle; else
the lowest idle slot. That slot is emptied and takes the frame's three identifier fields; its `param` and its
bytes, every other slot and everything else stay; one result without a packet is delivered, which is no error
(spec/43_slot_controller.md sections 2 and 3; that the slot's bytes stay is the spec's own reading, decision D22;
which result it is, says `NoFreeSlotForAnyRole`). -/
def Obligations.StartTakesTheLowestSlot : Prop :=
  ∀ (f : Fields) (payload : List Byte) (s : State) (i : Nat), s.lockHeld = false → i < s.slots.length →
    (((s.slot i).assembles f.fn = true ∧ ∀ j, j < i → (s.slot j).assembles f.fn = false) ∨
      ((∀ sl ∈ s.slots, sl.assembles f.fn = false) ∧ (s.slot i).inProgress = false ∧
        ∀ j, j < i → (s.slot j).inProgress = true)) →
    resolve s.slots f.fn = some i ∧
    ∃ kind, (kind = .ok ∨ kind = .inProgress ∨ kind = .noData) ∧ exec (.startFrame f payload) s = .next { s with
      slots := s.slots.set i { s.slot i with
        tag := .assembling, accLen := 0, fn := f.fn, src := f.src, dst := f.dst }
      results := s.results ++ [receiveResult kind], rPhase := .idle, recvOp := none }

/-- A frame of any role whose stream no slot assembles, with every slot assembling, is answered `NoFreeSlot` and
no slot changes; a START frame in every other case is answered `InProgress` and opens a slot for its stream
(spec/43_slot_controller.md section 2, spec/44_reassembler.md section 3; the answer to START is decision D19). -/
def Obligations.NoFreeSlotForAnyRole : Prop :=
  ∀ (f : Fields) (payload : List Byte) (seq : Byte) (s : State), s.lockHeld = false →
    ((∃ sl ∈ s.slots, sl.inProgress = false ∨ sl.fn = f.fn) →
      ∃ t i, exec (.startFrame f payload) s = .next t ∧
        t.results = s.results ++ [receiveResult .inProgress] ∧ t.slots.length = s.slots.length ∧
        i < t.slots.length ∧ (t.slot i).inProgress = true ∧ (t.slot i).fn = f.fn ∧ (t.slot i).accLen = 0) ∧
    ((∀ sl ∈ s.slots, sl.inProgress = true ∧ sl.fn ≠ f.fn) →
      ∃ t, t = { s with results := s.results ++ [receiveResult .noFreeSlot], rPhase := .idle, recvOp := none } ∧
        exec (.startFrame f payload) s = .next t ∧ exec (.endFrame f payload) s = .next t ∧
        exec (.dataFrame seq f payload) s = .next t)

/-- A data frame for an assembling slot with room: its bytes are stored at `acc_len`, in order, `acc_len` grows by
their number, and nothing else changes but the result (spec/43_slot_controller.md section 3,
spec/44_reassembler.md section 3; a frame of length 0 is decision D39). -/
def Obligations.DataIsAppendedToItsSlot : Prop :=
  ∀ (seq : Byte) (f : Fields) (payload : List Byte) (s : State) (i : Nat), s.lockHeld = false →
    resolve s.slots f.fn = some i → (s.slot i).inProgress = true → (s.slot i).fn = f.fn →
    (s.slot i).accLen.toNat + f.len.toNat ≤ 256 → payload.length = f.len.toNat →
    ∃ len : Len, len.toNat = (s.slot i).accLen.toNat + f.len.toNat ∧
      exec (.dataFrame seq f payload) s = .next { s with
        slots := s.slots.set i { s.slot i with
          accLen := len, buf := writeBytes (s.slot i).buf (s.slot i).accLen.toNat payload }
        results := s.results ++ [receiveResult .inProgress], rPhase := .idle, recvOp := none }

/-- What a data frame does to the bytes: outside the `len` offsets at the resolved slot's `acc_len` every byte of
every slot reads as before; where the frame is accepted, those offsets read the payload
(spec/20_memory.md section 4, effective addresses; spec/43_slot_controller.md section 3). -/
def Obligations.DataStoresOnlyAtTheSlotsEnd : Prop :=
  ∀ (seq : Byte) (f : Fields) (payload : List Byte) (s t : State),
    exec (.dataFrame seq f payload) s = .next t →
    (resolve s.slots f.fn = none → ∀ j a, t.readByte j a = s.readByte j a) ∧
    (∀ i, resolve s.slots f.fn = some i →
      (∀ j a, j ≠ i ∨ a < (s.slot i).accLen.toNat ∨ (s.slot i).accLen.toNat + f.len.toNat ≤ a →
        t.readByte j a = s.readByte j a) ∧
      (s.lockHeld = false → (s.slot i).assembles f.fn = true →
        (s.slot i).accLen.toNat + f.len.toNat ≤ 256 → payload.length = f.len.toNat →
        ∀ k, k < f.len.toNat → t.readByte i ((s.slot i).accLen.toNat + k) = payload[k]?))

/-- Every other row stores no byte: each byte of each slot reads as before after START, END, a reserved length,
INIT, SEND_PACKET, the reserved command, and a RECEIVE_ONE_FRAME step before step C
(spec/20_memory.md section 1, byte spaces). -/
def Obligations.OnlyDataStoresBytes : Prop :=
  ∀ (i : Instr) (s t : State),
    (∀ seq f payload, i ≠ .dataFrame seq f payload) →
    (∀ a, i = .receiveOneFrame a → s.rPhase ≠ .dispatch) →
    exec i s = .next t → ∀ j a, t.readByte j a = s.readByte j a

/-- A data frame whose stream no slot assembles is ignored with `InProgress`, provided some slot is idle: no slot
changes; with none idle it is `NoFreeSlot` (spec/44_reassembler.md R171). -/
def Obligations.StrayDataIsIgnored : Prop :=
  ∀ (seq : Byte) (f : Fields) (payload : List Byte) (s : State), s.lockHeld = false →
    (∀ sl ∈ s.slots, sl.assembles f.fn = false) →
    ((∃ sl ∈ s.slots, sl.inProgress = false) →
      exec (.dataFrame seq f payload) s = .next { s with
        results := s.results ++ [receiveResult .inProgress], rPhase := .idle, recvOp := none }) ∧
    ((∀ sl ∈ s.slots, sl.inProgress = true) →
      exec (.dataFrame seq f payload) s = .next { s with
        results := s.results ++ [receiveResult .noFreeSlot], rPhase := .idle, recvOp := none })

/-- Overflow: a data frame that would bring `acc_len` above 256 aborts the slot with `InvalidFormat` and stores
none of its bytes; one that brings it to 256 or less is accepted (spec/43_slot_controller.md R146). -/
def Obligations.OverflowAbortsTheSlot : Prop :=
  ∀ (seq : Byte) (f : Fields) (payload : List Byte) (s : State) (i : Nat), s.lockHeld = false →
    resolve s.slots f.fn = some i → (s.slot i).assembles f.fn = true →
    (256 < (s.slot i).accLen.toNat + f.len.toNat →
      ∃ t, exec (.dataFrame seq f payload) s = .next t ∧
        t.results = s.results ++ [receiveResult .invalidFormat] ∧
        (t.slot i).inProgress = false ∧ (∀ j, j ≠ i → t.slot j = s.slot j) ∧
        ∀ j a, t.readByte j a = s.readByte j a) ∧
    ((s.slot i).accLen.toNat + f.len.toNat ≤ 256 →
      ∃ t, exec (.dataFrame seq f payload) s = .next t ∧
        t.results = s.results ++ [receiveResult .inProgress] ∧ (t.slot i).inProgress = true ∧
        (t.slot i).accLen.toNat = (s.slot i).accLen.toNat + f.len.toNat)

/-- An END frame whose count and checksum match completes its slot: the packet has the slot's identifier, the
frame's third byte and the accumulated bytes; the slot is idle with length 0 and that `param`; nothing else changes
(spec/44_reassembler.md section 3, spec/43_slot_controller.md section 3; decisions D21, D22, D35). -/
def Obligations.EndDeliversThePacket : Prop :=
  ∀ (f : Fields) (payload bytes : List Byte) (s : State) (i : Nat) (pkt : Packet), s.lockHeld = false →
    resolve s.slots f.fn = some i → (s.slot i).inProgress = true → 3 ≤ f.len.toNat →
    (s.slot i).accLen.toNat ≤ 256 → bytes.length = (s.slot i).accLen.toNat →
    (∀ k, k < (s.slot i).accLen.toNat → s.readByte i k = bytes[k]?) →
    (payload.getD 0 0).toNat = ((s.slot i).accLen.toNat + 7) / 8 →
    payload.getD 1 0 = checksum8 s.cfg.checksum (chkInit s.cfg.checksum) bytes →
    pkt = ⟨(s.slot i).fn, (s.slot i).src, (s.slot i).dst, payload.getD 2 0, bytes⟩ →
    exec (.endFrame f payload) s = .next { s with
      slots := s.slots.set i { s.slot i with tag := .idle, accLen := 0, param := payload.getD 2 0 }
      results := s.results ++ [⟨.receive, .ok, some pkt⟩], rPhase := .idle, recvOp := none }

/-- A wrong frame count aborts the slot with `InvalidFormat`, whatever the checksum says
(spec/44_reassembler.md section 3; that an aborted slot has length 0 is decision D22, that the comparison is
unsigned decision D40). -/
def Obligations.WrongFrameCountAborts : Prop :=
  ∀ (f : Fields) (payload : List Byte) (s : State) (i : Nat), s.lockHeld = false →
    resolve s.slots f.fn = some i → (s.slot i).inProgress = true → 3 ≤ f.len.toNat →
    (payload.getD 0 0).toNat ≠ ((s.slot i).accLen.toNat + 7) / 8 →
    exec (.endFrame f payload) s = .next { s with
      slots := s.slots.set i { s.slot i with tag := .idle, accLen := 0 }
      results := s.results ++ [receiveResult .invalidFormat], rPhase := .idle, recvOp := none }

/-- With the right count, a wrong checksum aborts the slot with `InvalidCrc` (spec/44_reassembler.md section 3; that
an aborted slot has length 0 is decision D22). -/
def Obligations.WrongChecksumAborts : Prop :=
  ∀ (f : Fields) (payload bytes : List Byte) (s : State) (i : Nat), s.lockHeld = false →
    resolve s.slots f.fn = some i → (s.slot i).inProgress = true → 3 ≤ f.len.toNat →
    (s.slot i).accLen.toNat ≤ 256 → bytes.length = (s.slot i).accLen.toNat →
    (∀ k, k < (s.slot i).accLen.toNat → s.readByte i k = bytes[k]?) →
    (payload.getD 0 0).toNat = ((s.slot i).accLen.toNat + 7) / 8 →
    payload.getD 1 0 ≠ checksum8 s.cfg.checksum (chkInit s.cfg.checksum) bytes →
    exec (.endFrame f payload) s = .next { s with
      slots := s.slots.set i { s.slot i with tag := .idle, accLen := 0 }
      results := s.results ++ [receiveResult .invalidCrc], rPhase := .idle, recvOp := none }

/-- An END frame that no slot is assembling for is, where some slot is idle, `InvalidFormat` with no slot changed
(with every slot assembling it is `NoFreeSlot`, as `NoFreeSlotForAnyRole` says); one with fewer than 3 payload bytes
for an assembling slot aborts it with `InvalidFormat` (spec/44_reassembler.md section 3, spec/43_slot_controller.md
sections 2 and 3; decisions D20, D21; that an aborted slot has length 0 is decision D22). -/
def Obligations.StrayAndShortEndFrames : Prop :=
  ∀ (f : Fields) (payload : List Byte) (s : State) (i : Nat), s.lockHeld = false →
    resolve s.slots f.fn = some i →
    ((s.slot i).inProgress = false →
      exec (.endFrame f payload) s = .next { s with
        results := s.results ++ [receiveResult .invalidFormat], rPhase := .idle, recvOp := none }) ∧
    ((s.slot i).inProgress = true → f.len.toNat < 3 →
      exec (.endFrame f payload) s = .next { s with
        slots := s.slots.set i { s.slot i with tag := .idle, accLen := 0 }
        results := s.results ++ [receiveResult .invalidFormat], rPhase := .idle, recvOp := none })

/-- After any END frame resolved to an assembling slot of a state with the invariant, that slot is idle, and so
usable: a START opens it again wherever the slot scan comes to it, that is for a stream that no slot assembles, the
slot's own stream among them, where no lower slot is idle; with a lower slot idle it opens the lower one
(spec/44_reassembler.md section 3, spec/43_slot_controller.md sections 2 and 3; decision D22). -/
def Obligations.EndAlwaysFreesItsSlot : Prop :=
  ∀ (f : Fields) (payload : List Byte) (s : State) (i : Nat), s.Inv → s.lockHeld = false →
    resolve s.slots f.fn = some i → (s.slot i).inProgress = true →
    ∃ t, exec (.endFrame f payload) s = .next t ∧ (t.slot i).inProgress = false ∧ (t.slot i).accLen = 0 ∧
      (∀ j, j ≠ i → t.slot j = s.slot j) ∧
      ∀ (g : Fields) (bytes : List Byte), resolve t.slots g.fn = some i →
        ∃ u, exec (.startFrame g bytes) t = .next u ∧ (u.slot i).inProgress = true ∧ (u.slot i).fn = g.fn ∧
          u.results = t.results ++ [receiveResult .inProgress]

/-- Changing a single accumulated byte from what the sender folded is always `InvalidCrc`, never `OK`, for a
checksum with CHK-SENS, which the statement names as a hypothesis (spec/44_reassembler.md section 4, detection;
spec/90_conflicts.md C8; the checksum is open, decision D8, log 5; that an aborted slot has length 0 is decision
D22). -/
def Obligations.FlippedByteIsInvalidCrc : Prop :=
  ∀ (f : Fields) (payload xs ys : List Byte) (b c : Byte) (s : State) (i : Nat),
    ChecksumSensitive s.cfg.checksum → s.lockHeld = false →
    resolve s.slots f.fn = some i → (s.slot i).inProgress = true → 3 ≤ f.len.toNat →
    bufRead (s.slot i).buf 0 (s.slot i).accLen.toNat = .ok (xs ++ c :: ys) → b ≠ c →
    (payload.getD 0 0).toNat = ceil8 (xs ++ b :: ys).length →
    payload.getD 1 0 = checksum8 s.cfg.checksum (chkInit s.cfg.checksum) (xs ++ b :: ys) →
    exec (.endFrame f payload) s = .next { s with
      slots := s.slots.set i { s.slot i with tag := .idle, accLen := 0 }
      results := s.results ++ [receiveResult .invalidCrc], rPhase := .idle, recvOp := none }

/-- The sequence number of a data frame is never examined, and for DATA and END neither is the source or the
destination; a START's payload is ignored; the reserved bits and flags of no role are looked at
(spec/44_reassembler.md section 4, spec/30_encoding.md section 3; decisions D7, D18). -/
def Obligations.IgnoredFieldsHaveNoEffect : Prop :=
  ∀ (f g : Fields) (p q : List Byte) (m n : Byte) (s : State), f.fn = g.fn → f.len = g.len →
    exec (.dataFrame m f p) s = exec (.dataFrame n g p) s ∧
    exec (.endFrame f p) s = exec (.endFrame g p) s ∧
    (f.src = g.src → f.dst = g.dst → exec (.startFrame f p) s = exec (.startFrame g q) s)

/-- Step C lets the lock go on every path that goes on, and while another holder has it, it takes no step
(spec/20_memory.md section 3, the lock; spec/93_implementation_defined.md U16; log 17). -/
def Obligations.LockIsFreedOnEveryPath : Prop :=
  ∀ (i : Instr) (s : State),
    ((∃ f p, i = .startFrame f p) ∨ (∃ f p, i = .endFrame f p) ∨ (∃ n f p, i = .dataFrame n f p)) →
    (s.lockHeld = false → ∀ t, exec i s = .next t → t.lockHeld = false) ∧
    (s.lockHeld = true → exec i s = .next s)

/-! ## Whole invocations, whole runs -/

/-- One call processes at most one frame and advances at most one slot: one result is delivered, no slot but the
one RESOLVE returned differs, and the FIFO lost nothing, or a header, or a header with its declared payload
(spec/44_reassembler.md R173). -/
def Obligations.OneFrameOneSlotPerCall : Prop :=
  ∀ (a : Addr) (s t : State), s.rPhase = .idle → s.lockHeld = false → callReceive a s = .next t →
    (∀ j, t.slot j ≠ s.slot j → resolve s.slots (headerFields (s.rxFifo.take 5)).fn = some j) ∧
    t.slots.length = s.slots.length ∧
    (∃ r, t.results = s.results ++ [r] ∧ r.op = .receive ∧
      (r.packet.isSome = true → r.kind = .ok) ∧
      (t.rxFifo = s.rxFifo ∧ (r.kind = .notInitialized ∨ r.kind = .noData) ∨
        t.rxFifo = s.rxFifo.drop 5 ∧ (r.kind = .malformedHeader ∨ r.kind = .noData) ∨
        t.rxFifo = s.rxFifo.drop (5 + (headerFields (s.rxFifo.take 5)).len.toNat) ∧
          r.kind ≠ .notInitialized ∧ r.kind ≠ .noData ∧ r.kind ≠ .malformedHeader))

/-- From a state whose lengths are in range and whose accumulated bytes are written, with the lock free, a
RECEIVE_ONE_FRAME always ends: the reassembler idle and exactly one result, whatever the transport does
(spec/70_reset_and_hazards.md section 3, progress; log 8). -/
def Obligations.ReceiveAlwaysEnds : Prop :=
  ∀ (a : Addr) (s : State), s.rPhase = .idle → s.lockHeld = false → SlotsBounded s → BuffersWritten s →
    ∃ t k pkt, callReceive a s = .next t ∧ t.rPhase = .idle ∧ t.recvOp = none ∧ t.lockHeld = false ∧
      t.results = s.results ++ [⟨.receive, k, pkt⟩]

/-- A step of the send side and a step of the receive side commute: in either order they reach the same state but
for the order in which the two units' results stand, and each unit's results are the same
(spec/20_memory.md section 4, independence of the two directions; log 26). -/
def Obligations.SendAndReceiveStepsCommute : Prop :=
  ∀ (op : SendOp) (i : Instr) (s s1 s2 : State), receiveSide i = true →
    exec (.sendPacket op) s = .next s1 → exec i s1 = .next s2 →
    ∃ u1 u2, exec i s = .next u1 ∧ exec (.sendPacket op) u1 = .next u2 ∧
      { u2 with results := s2.results } = s2 ∧ ∀ o, u2.resultsOf o = s2.resultsOf o

/-- The round trip: the frames of a packet of 0 to 256 bytes, received whole and in order by a block with an idle
slot and none assembling the stream, give `InProgress` for every frame but the last and then the same packet;
nothing is left pending, the next poll is `NoData`, and every slot is assembling or idle as before. For every
legal sentinel pair, every checksum unit, every `param` (spec/44_reassembler.md section 4, which derives it; the
layout is decision D3 to D5). -/
def Obligations.FragmentThenReassembleRoundTrip : Prop :=
  ∀ (op : SendOp) (s : State) (n : Nat),
    s.legal = true → op.length.toNat ≤ maxPacketPayload → op.payload.length = op.length.toNat →
    n = ceil8 op.length.toNat →
    s.rPhase = .idle → s.rxBound = true → s.lockHeld = false →
    (∀ sl ∈ s.slots, sl.assembles op.fn = false) → (∃ sl ∈ s.slots, sl.inProgress = false) →
    s.rxFifo = (packetFrames s.cfg op).flatten →
    s.rxAnswers = List.replicate (2 * n + 5) .serve →
    ∃ t, pollTimes op.dst (n + 2) s = .next t ∧
      t.results = s.results ++ List.replicate (n + 1) (receiveResult .inProgress) ++
        [⟨.receive, .ok, some (packetOf op)⟩] ∧
      t.rxFifo = [] ∧ (∀ j, (t.slot j).inProgress = (s.slot j).inProgress) ∧
      ∃ u, callReceive op.dst t = .next u ∧ u.results = t.results ++ [receiveResult .noData]

/-- A slot stops assembling only by a reset, by an END frame resolved to it, or by a data frame that overflows it:
no time, no other stream, no other operation ends an assembly (spec/43_slot_controller.md section 3, no timeout). -/
def Obligations.AssemblyEndsOnlyByItsOwnFrames : Prop :=
  ∀ (s t : State) (i : Nat), step s = .next t → i < s.slots.length →
    (s.slot i).inProgress = true → (t.slot i).inProgress = false →
    s.nextEvent = .reset ∨
    (s.nextEvent = .reassembler ∧ s.rPhase = .dispatch ∧ resolve s.slots s.fr.fields.fn = some i ∧
      (role s.cfg s.fr.param = .finish ∨
        (role s.cfg s.fr.param = .data ∧ 256 < (s.slot i).accLen.toNat + s.fr.fields.len.toNat)))

/-- The slot table is written only by step C of a RECEIVE_ONE_FRAME, with the lock free, and by reset: never by
SEND_PACKET, INIT, the fetch or the filter (spec/10_state.md section 2, spec/20_memory.md section 4). -/
def Obligations.SlotTableIsWrittenOnlyInStepC : Prop :=
  ∀ s t : State, step s = .next t → t.slots ≠ s.slots →
    s.nextEvent = .reset ∨
    (s.nextEvent = .reassembler ∧ s.rPhase = .dispatch ∧ s.lockHeld = false ∧ s.recvOp.isSome = true)

/-- A step delivers at most one result and takes none back (spec/44_reassembler.md section 4, spec/10_state.md
section 3; the record is the model's, log 26). -/
def Obligations.ResultsAreDeliveredOnce : Prop :=
  ∀ s t : State, step s = .next t → t.results = s.results ∨ ∃ r, t.results = s.results ++ [r]
end

