-- ==== Sys2Proof/Laws/Checksum.lean ====
section
/-! SUPPORT. The laws of the checksum parameter: spec/00_scope.md R12. -/

namespace Sys2Proof.Machine

/-- CHK-EMPTY. -/
@[simp] theorem checksum8_nil (u : ChecksumUnit) (a : Byte) : checksum8 u a [] = a := rfl

@[simp] theorem checksum8_cons (u : ChecksumUnit) (a b : Byte) (bs : List Byte) :
    checksum8 u a (b :: bs) = checksum8 u (checksumStep u a b) bs := rfl

/-- CHK-FOLD. -/
theorem checksum8_append (u : ChecksumUnit) (a : Byte) (xs ys : List Byte) :
    checksum8 u a (xs ++ ys) = checksum8 u (checksum8 u a xs) ys := List.foldl_append

/-- The fold is injective in its accumulator where the step is. -/
theorem checksum8_acc_injective (u : ChecksumUnit) (h : ChecksumSensitive u) (bs : List Byte) (a c : Byte)
    (e : checksum8 u a bs = checksum8 u c bs) : a = c := by
  induction bs generalizing a c with
  | nil => exact e
  | cons b bs ih => exact h.2 a c b (ih _ _ e)

/-- T-SUM has CHK-SENS (spec/95_test_vectors.md, conventions). -/
theorem tSum_sensitive : ChecksumSensitive .tSum :=
  ⟨fun a _ _ h => BitVec.add_right_inj a |>.1 h, fun _ _ b h => BitVec.add_left_inj b |>.1 h⟩

end Sys2Proof.Machine
end

