-- ==== Sys2Proof/Laws/Memory.lean ====
section
/-! SUPPORT. The slot buffers: read after write, and every operation keeps the canonical form. -/

namespace Sys2Proof.Machine

@[simp] theorem Memory.read_write_same (m : Memory) (a : Nat) (b : Byte) : (m.write a b).read a = some b := by
  induction m with
  | nil => simp [Memory.write, Memory.read]
  | cons c m ih =>
    obtain ⟨k, v⟩ := c
    unfold Memory.write
    split
    · simp [Memory.read]
    · split
      · simp [Memory.read]
      · have hk : k ≠ a := by omega
        simp [Memory.read, hk, ih]

theorem Memory.read_write_other (m : Memory) {a c : Nat} (b : Byte) (h : c ≠ a) :
    (m.write a b).read c = m.read c := by
  induction m with
  | nil => simp [Memory.write, Memory.read, h.symm]
  | cons x m ih =>
    obtain ⟨k, v⟩ := x
    unfold Memory.write
    split
    · simp [Memory.read, h.symm]
    · split
      · rename_i hk
        subst hk
        simp [Memory.read, h.symm]
      · simp [Memory.read, ih]

theorem Memory.risingFrom_write (m : Memory) (lo a : Nat) (b : Byte) (hlo : lo < a)
    (h : Memory.risingFrom lo m = true) : Memory.risingFrom lo (m.write a b) = true := by
  induction m generalizing lo with
  | nil => simp [Memory.write, Memory.risingFrom, hlo]
  | cons x m ih =>
    obtain ⟨k, v⟩ := x
    simp only [Memory.risingFrom, Bool.and_eq_true, decide_eq_true_eq] at h
    unfold Memory.write
    split
    · rename_i hk
      simp [Memory.risingFrom, hlo, hk, h.2]
    · split
      · rename_i hk
        subst hk
        simp [Memory.risingFrom, hlo, h.2]
      · have hk : k < a := by omega
        simp [Memory.risingFrom, h.1, ih k hk h.2]

/-- A write keeps the canonical form. -/
theorem Memory.wf_write (m : Memory) (a : Nat) (b : Byte) (h : m.wf = true) : (m.write a b).wf = true := by
  match m, h with
  | [], _ => rfl
  | (k, v) :: m, h =>
    unfold Memory.write
    simp only [Memory.wf] at h
    split
    · rename_i hk
      simp [Memory.wf, Memory.risingFrom, hk, h]
    · split
      · rename_i hk
        subst hk
        simpa [Memory.wf] using h
      · exact Memory.risingFrom_write m k a b (by omega) h

/-- A write at an offset that exists keeps every listed offset an offset that exists. -/
theorem Memory.bounded_write (m : Memory) (a : Nat) (b : Byte) (ha : a < maxPacketPayload)
    (h : m.bounded = true) : (m.write a b).bounded = true := by
  induction m with
  | nil => simp [Memory.write, Memory.bounded, ha]
  | cons x m ih =>
    obtain ⟨k, v⟩ := x
    simp only [Memory.bounded, List.all_cons, Bool.and_eq_true, decide_eq_true_eq] at h ih ⊢
    unfold Memory.write
    split
    · simp [ha, h]
    · split
      · simp [ha, h.2]
      · simp [h.1, ih h.2]

theorem writeBytes_wf (m : Memory) (a : Nat) (bs : List Byte) (h : m.wf = true) :
    (writeBytes m a bs).wf = true := by
  induction bs generalizing m a with
  | nil => exact h
  | cons b bs ih => exact ih _ _ (m.wf_write a b h)

theorem writeBytes_bounded (m : Memory) (a : Nat) (bs : List Byte) (ha : a + bs.length ≤ maxPacketPayload)
    (h : m.bounded = true) : (writeBytes m a bs).bounded = true := by
  induction bs generalizing m a with
  | nil => exact h
  | cons b bs ih =>
    simp only [List.length_cons] at ha
    exact ih _ _ (by omega) (m.bounded_write a b (by omega) h)

/-- Outside the written offsets every byte reads as before. -/
theorem read_writeBytes_outside (m : Memory) (a c : Nat) (bs : List Byte) (h : c < a ∨ a + bs.length ≤ c) :
    (writeBytes m a bs).read c = m.read c := by
  induction bs generalizing m a with
  | nil => rfl
  | cons b bs ih =>
    simp only [List.length_cons] at h
    simp only [writeBytes]
    rw [ih _ _ (by omega), Memory.read_write_other _ _ (by omega)]

/-- Inside the written offsets the written bytes are read. -/
theorem read_writeBytes_inside (m : Memory) (a k : Nat) (bs : List Byte) (h : k < bs.length) :
    (writeBytes m a bs).read (a + k) = bs[k]? := by
  induction bs generalizing m a k with
  | nil => simp at h
  | cons b bs ih =>
    simp only [writeBytes]
    cases k with
    | zero =>
      rw [read_writeBytes_outside _ _ _ _ (by omega)]
      simp
    | succ k =>
      simp only [List.length_cons] at h
      have := ih (m.write a b) (a + 1) k (by omega)
      rw [show a + (k + 1) = a + 1 + k by omega, this]
      simp

/-- What reading consecutive bytes gives: exactly those bytes. -/
theorem readBytes_eq_some (m : Memory) (a n : Nat) (bs : List Byte) :
    readBytes m a n = some bs ↔ bs.length = n ∧ ∀ k, k < n → m.read (a + k) = bs[k]? := by
  induction n generalizing a bs with
  | zero => simp [readBytes, eq_comm, List.eq_nil_iff_length_eq_zero]
  | succ n ih =>
    constructor
    · intro h
      unfold readBytes at h
      split at h
      · rename_i b bs' hb hbs
        obtain rfl := Option.some.inj h
        obtain ⟨hl, hr⟩ := (ih _ _).1 hbs
        refine ⟨by simp [hl], fun k hk => ?_⟩
        cases k with
        | zero => simpa using hb
        | succ k =>
          rw [show a + (k + 1) = a + 1 + k by omega, hr k (by omega)]
          simp
      · cases h
    · rintro ⟨hl, hr⟩
      cases bs with
      | nil => simp at hl
      | cons b bs =>
        have hb : m.read a = some b := by simpa using hr 0 (by omega)
        have hbs : readBytes m (a + 1) n = some bs := by
          refine (ih _ _).2 ⟨by simpa using hl, fun k hk => ?_⟩
          have := hr (k + 1) (by omega)
          rw [show a + (k + 1) = a + 1 + k by omega] at this
          simpa using this
        simp [readBytes, hb, hbs]

/-- `BufWrite` answers the written buffer exactly when the bytes fit in offsets 0 to 255. -/
theorem bufWrite_eq_ok (m m' : Memory) (a : Nat) (bs : List Byte) :
    bufWrite m a bs = .ok m' ↔ a + bs.length ≤ maxPacketPayload ∧ m' = writeBytes m a bs := by
  unfold bufWrite
  split <;> simp_all [eq_comm]

/-- `BufRead` answers bytes exactly when the offsets exist and every byte was written. -/
theorem bufRead_eq_ok (m : Memory) (a n : Nat) (bs : List Byte) :
    bufRead m a n = .ok bs ↔
      a + n ≤ maxPacketPayload ∧ bs.length = n ∧ ∀ k, k < n → m.read (a + k) = bs[k]? := by
  rw [← readBytes_eq_some]
  unfold bufRead
  split
  · split <;> simp_all
  · simp_all

/-- Where every byte was written and the offsets exist, `BufRead` answers bytes. -/
theorem bufRead_written (m : Memory) (a n : Nat) (hn : a + n ≤ maxPacketPayload)
    (h : ∀ k, k < n → (m.read (a + k)).isSome = true) : ∃ bs, bufRead m a n = .ok bs := by
  have key : ∀ n a, (∀ k, k < n → (m.read (a + k)).isSome = true) → ∃ bs, readBytes m a n = some bs := by
    intro n
    induction n with
    | zero => exact fun a _ => ⟨[], rfl⟩
    | succ n ih =>
      intro a h
      obtain ⟨bs, hbs⟩ := ih (a + 1) fun k hk => by
        rw [show a + 1 + k = a + (k + 1) by omega]
        exact h (k + 1) (by omega)
      obtain ⟨b, hb⟩ := Option.isSome_iff_exists.1 (h 0 (by omega))
      exact ⟨b :: bs, by simp [readBytes, hbs, show m.read a = some b from hb]⟩
  obtain ⟨bs, hbs⟩ := key n a h
  exact ⟨bs, by unfold bufRead; rw [if_pos hn, hbs]⟩

/-- The buffers of the reset state are in the canonical form. -/
theorem reset_buffers_wf : State.reset.slots.all (fun sl => sl.buf.wf) = true := by decide

end Sys2Proof.Machine
end

