-- ==== Sys2Proof/Laws/State.lean ====
section
/-! SUPPORT. One lemma per field per update of the state, true by rfl: no later proof unfolds a record update. -/

namespace Sys2Proof.Machine

/-! `State.setSlot` -/

@[simp] theorem State.setSlot_cfg (s : State) (i : Nat) (sl : Slot) : (s.setSlot i sl).cfg = s.cfg := rfl
@[simp] theorem State.setSlot_slots (s : State) (i : Nat) (sl : Slot) :
    (s.setSlot i sl).slots = s.slots.set i sl := rfl
@[simp] theorem State.setSlot_txBound (s : State) (i : Nat) (sl : Slot) : (s.setSlot i sl).txBound = s.txBound := rfl
@[simp] theorem State.setSlot_rxBound (s : State) (i : Nat) (sl : Slot) : (s.setSlot i sl).rxBound = s.rxBound := rfl
@[simp] theorem State.setSlot_fPhase (s : State) (i : Nat) (sl : Slot) : (s.setSlot i sl).fPhase = s.fPhase := rfl
@[simp] theorem State.setSlot_fSeq (s : State) (i : Nat) (sl : Slot) : (s.setSlot i sl).fSeq = s.fSeq := rfl
@[simp] theorem State.setSlot_fOff (s : State) (i : Nat) (sl : Slot) : (s.setSlot i sl).fOff = s.fOff := rfl
@[simp] theorem State.setSlot_fChk (s : State) (i : Nat) (sl : Slot) : (s.setSlot i sl).fChk = s.fChk := rfl
@[simp] theorem State.setSlot_fParam (s : State) (i : Nat) (sl : Slot) : (s.setSlot i sl).fParam = s.fParam := rfl
@[simp] theorem State.setSlot_sendOp (s : State) (i : Nat) (sl : Slot) : (s.setSlot i sl).sendOp = s.sendOp := rfl
@[simp] theorem State.setSlot_rPhase (s : State) (i : Nat) (sl : Slot) : (s.setSlot i sl).rPhase = s.rPhase := rfl
@[simp] theorem State.setSlot_recvOp (s : State) (i : Nat) (sl : Slot) : (s.setSlot i sl).recvOp = s.recvOp := rfl
@[simp] theorem State.setSlot_fr (s : State) (i : Nat) (sl : Slot) : (s.setSlot i sl).fr = s.fr := rfl
@[simp] theorem State.setSlot_lockHeld (s : State) (i : Nat) (sl : Slot) :
    (s.setSlot i sl).lockHeld = s.lockHeld := rfl
@[simp] theorem State.setSlot_results (s : State) (i : Nat) (sl : Slot) : (s.setSlot i sl).results = s.results := rfl
@[simp] theorem State.setSlot_rxFifo (s : State) (i : Nat) (sl : Slot) : (s.setSlot i sl).rxFifo = s.rxFifo := rfl
@[simp] theorem State.setSlot_txCalls (s : State) (i : Nat) (sl : Slot) : (s.setSlot i sl).txCalls = s.txCalls := rfl
@[simp] theorem State.setSlot_hostQueue (s : State) (i : Nat) (sl : Slot) :
    (s.setSlot i sl).hostQueue = s.hostQueue := rfl
@[simp] theorem State.setSlot_script (s : State) (i : Nat) (sl : Slot) : (s.setSlot i sl).script = s.script := rfl
@[simp] theorem State.setSlot_txAnswers (s : State) (i : Nat) (sl : Slot) :
    (s.setSlot i sl).txAnswers = s.txAnswers := rfl
@[simp] theorem State.setSlot_rxAnswers (s : State) (i : Nat) (sl : Slot) :
    (s.setSlot i sl).rxAnswers = s.rxAnswers := rfl
@[simp] theorem State.setSlot_txDraws (s : State) (i : Nat) (sl : Slot) : (s.setSlot i sl).txDraws = s.txDraws := rfl
@[simp] theorem State.setSlot_rxDraws (s : State) (i : Nat) (sl : Slot) : (s.setSlot i sl).rxDraws = s.rxDraws := rfl
@[simp] theorem State.setSlot_eventDraws (s : State) (i : Nat) (sl : Slot) :
    (s.setSlot i sl).eventDraws = s.eventDraws := rfl

/-! `State.acquire` -/

@[simp] theorem State.acquire_cfg (s : State) : (s.acquire).cfg = s.cfg := rfl
@[simp] theorem State.acquire_slots (s : State) : (s.acquire).slots = s.slots := rfl
@[simp] theorem State.acquire_txBound (s : State) : (s.acquire).txBound = s.txBound := rfl
@[simp] theorem State.acquire_rxBound (s : State) : (s.acquire).rxBound = s.rxBound := rfl
@[simp] theorem State.acquire_fPhase (s : State) : (s.acquire).fPhase = s.fPhase := rfl
@[simp] theorem State.acquire_fSeq (s : State) : (s.acquire).fSeq = s.fSeq := rfl
@[simp] theorem State.acquire_fOff (s : State) : (s.acquire).fOff = s.fOff := rfl
@[simp] theorem State.acquire_fChk (s : State) : (s.acquire).fChk = s.fChk := rfl
@[simp] theorem State.acquire_fParam (s : State) : (s.acquire).fParam = s.fParam := rfl
@[simp] theorem State.acquire_sendOp (s : State) : (s.acquire).sendOp = s.sendOp := rfl
@[simp] theorem State.acquire_rPhase (s : State) : (s.acquire).rPhase = s.rPhase := rfl
@[simp] theorem State.acquire_recvOp (s : State) : (s.acquire).recvOp = s.recvOp := rfl
@[simp] theorem State.acquire_fr (s : State) : (s.acquire).fr = s.fr := rfl
@[simp] theorem State.acquire_lockHeld (s : State) : (s.acquire).lockHeld = true := rfl
@[simp] theorem State.acquire_results (s : State) : (s.acquire).results = s.results := rfl
@[simp] theorem State.acquire_rxFifo (s : State) : (s.acquire).rxFifo = s.rxFifo := rfl
@[simp] theorem State.acquire_txCalls (s : State) : (s.acquire).txCalls = s.txCalls := rfl
@[simp] theorem State.acquire_hostQueue (s : State) : (s.acquire).hostQueue = s.hostQueue := rfl
@[simp] theorem State.acquire_script (s : State) : (s.acquire).script = s.script := rfl
@[simp] theorem State.acquire_txAnswers (s : State) : (s.acquire).txAnswers = s.txAnswers := rfl
@[simp] theorem State.acquire_rxAnswers (s : State) : (s.acquire).rxAnswers = s.rxAnswers := rfl
@[simp] theorem State.acquire_txDraws (s : State) : (s.acquire).txDraws = s.txDraws := rfl
@[simp] theorem State.acquire_rxDraws (s : State) : (s.acquire).rxDraws = s.rxDraws := rfl
@[simp] theorem State.acquire_eventDraws (s : State) : (s.acquire).eventDraws = s.eventDraws := rfl

/-! `State.release` -/

@[simp] theorem State.release_cfg (s : State) : (s.release).cfg = s.cfg := rfl
@[simp] theorem State.release_slots (s : State) : (s.release).slots = s.slots := rfl
@[simp] theorem State.release_txBound (s : State) : (s.release).txBound = s.txBound := rfl
@[simp] theorem State.release_rxBound (s : State) : (s.release).rxBound = s.rxBound := rfl
@[simp] theorem State.release_fPhase (s : State) : (s.release).fPhase = s.fPhase := rfl
@[simp] theorem State.release_fSeq (s : State) : (s.release).fSeq = s.fSeq := rfl
@[simp] theorem State.release_fOff (s : State) : (s.release).fOff = s.fOff := rfl
@[simp] theorem State.release_fChk (s : State) : (s.release).fChk = s.fChk := rfl
@[simp] theorem State.release_fParam (s : State) : (s.release).fParam = s.fParam := rfl
@[simp] theorem State.release_sendOp (s : State) : (s.release).sendOp = s.sendOp := rfl
@[simp] theorem State.release_rPhase (s : State) : (s.release).rPhase = s.rPhase := rfl
@[simp] theorem State.release_recvOp (s : State) : (s.release).recvOp = s.recvOp := rfl
@[simp] theorem State.release_fr (s : State) : (s.release).fr = s.fr := rfl
@[simp] theorem State.release_lockHeld (s : State) : (s.release).lockHeld = false := rfl
@[simp] theorem State.release_results (s : State) : (s.release).results = s.results := rfl
@[simp] theorem State.release_rxFifo (s : State) : (s.release).rxFifo = s.rxFifo := rfl
@[simp] theorem State.release_txCalls (s : State) : (s.release).txCalls = s.txCalls := rfl
@[simp] theorem State.release_hostQueue (s : State) : (s.release).hostQueue = s.hostQueue := rfl
@[simp] theorem State.release_script (s : State) : (s.release).script = s.script := rfl
@[simp] theorem State.release_txAnswers (s : State) : (s.release).txAnswers = s.txAnswers := rfl
@[simp] theorem State.release_rxAnswers (s : State) : (s.release).rxAnswers = s.rxAnswers := rfl
@[simp] theorem State.release_txDraws (s : State) : (s.release).txDraws = s.txDraws := rfl
@[simp] theorem State.release_rxDraws (s : State) : (s.release).rxDraws = s.rxDraws := rfl
@[simp] theorem State.release_eventDraws (s : State) : (s.release).eventDraws = s.eventDraws := rfl

/-! `State.deliver` -/

@[simp] theorem State.deliver_cfg (s : State) (op : HostOp) (k : ResultKind) (p : Option Packet) :
    (s.deliver op k p).cfg = s.cfg := rfl
@[simp] theorem State.deliver_slots (s : State) (op : HostOp) (k : ResultKind) (p : Option Packet) :
    (s.deliver op k p).slots = s.slots := rfl
@[simp] theorem State.deliver_txBound (s : State) (op : HostOp) (k : ResultKind) (p : Option Packet) :
    (s.deliver op k p).txBound = s.txBound := rfl
@[simp] theorem State.deliver_rxBound (s : State) (op : HostOp) (k : ResultKind) (p : Option Packet) :
    (s.deliver op k p).rxBound = s.rxBound := rfl
@[simp] theorem State.deliver_fPhase (s : State) (op : HostOp) (k : ResultKind) (p : Option Packet) :
    (s.deliver op k p).fPhase = s.fPhase := rfl
@[simp] theorem State.deliver_fSeq (s : State) (op : HostOp) (k : ResultKind) (p : Option Packet) :
    (s.deliver op k p).fSeq = s.fSeq := rfl
@[simp] theorem State.deliver_fOff (s : State) (op : HostOp) (k : ResultKind) (p : Option Packet) :
    (s.deliver op k p).fOff = s.fOff := rfl
@[simp] theorem State.deliver_fChk (s : State) (op : HostOp) (k : ResultKind) (p : Option Packet) :
    (s.deliver op k p).fChk = s.fChk := rfl
@[simp] theorem State.deliver_fParam (s : State) (op : HostOp) (k : ResultKind) (p : Option Packet) :
    (s.deliver op k p).fParam = s.fParam := rfl
@[simp] theorem State.deliver_sendOp (s : State) (op : HostOp) (k : ResultKind) (p : Option Packet) :
    (s.deliver op k p).sendOp = s.sendOp := rfl
@[simp] theorem State.deliver_rPhase (s : State) (op : HostOp) (k : ResultKind) (p : Option Packet) :
    (s.deliver op k p).rPhase = s.rPhase := rfl
@[simp] theorem State.deliver_recvOp (s : State) (op : HostOp) (k : ResultKind) (p : Option Packet) :
    (s.deliver op k p).recvOp = s.recvOp := rfl
@[simp] theorem State.deliver_fr (s : State) (op : HostOp) (k : ResultKind) (p : Option Packet) :
    (s.deliver op k p).fr = s.fr := rfl
@[simp] theorem State.deliver_lockHeld (s : State) (op : HostOp) (k : ResultKind) (p : Option Packet) :
    (s.deliver op k p).lockHeld = s.lockHeld := rfl
@[simp] theorem State.deliver_results (s : State) (op : HostOp) (k : ResultKind) (p : Option Packet) :
    (s.deliver op k p).results = s.results ++ [⟨op, k, p⟩] := rfl
@[simp] theorem State.deliver_rxFifo (s : State) (op : HostOp) (k : ResultKind) (p : Option Packet) :
    (s.deliver op k p).rxFifo = s.rxFifo := rfl
@[simp] theorem State.deliver_txCalls (s : State) (op : HostOp) (k : ResultKind) (p : Option Packet) :
    (s.deliver op k p).txCalls = s.txCalls := rfl
@[simp] theorem State.deliver_hostQueue (s : State) (op : HostOp) (k : ResultKind) (p : Option Packet) :
    (s.deliver op k p).hostQueue = s.hostQueue := rfl
@[simp] theorem State.deliver_script (s : State) (op : HostOp) (k : ResultKind) (p : Option Packet) :
    (s.deliver op k p).script = s.script := rfl
@[simp] theorem State.deliver_txAnswers (s : State) (op : HostOp) (k : ResultKind) (p : Option Packet) :
    (s.deliver op k p).txAnswers = s.txAnswers := rfl
@[simp] theorem State.deliver_rxAnswers (s : State) (op : HostOp) (k : ResultKind) (p : Option Packet) :
    (s.deliver op k p).rxAnswers = s.rxAnswers := rfl
@[simp] theorem State.deliver_txDraws (s : State) (op : HostOp) (k : ResultKind) (p : Option Packet) :
    (s.deliver op k p).txDraws = s.txDraws := rfl
@[simp] theorem State.deliver_rxDraws (s : State) (op : HostOp) (k : ResultKind) (p : Option Packet) :
    (s.deliver op k p).rxDraws = s.rxDraws := rfl
@[simp] theorem State.deliver_eventDraws (s : State) (op : HostOp) (k : ResultKind) (p : Option Packet) :
    (s.deliver op k p).eventDraws = s.eventDraws := rfl

/-! `State.finishSend` -/

@[simp] theorem State.finishSend_cfg (s : State) (k : ResultKind) : (s.finishSend k).cfg = s.cfg := rfl
@[simp] theorem State.finishSend_slots (s : State) (k : ResultKind) : (s.finishSend k).slots = s.slots := rfl
@[simp] theorem State.finishSend_txBound (s : State) (k : ResultKind) : (s.finishSend k).txBound = s.txBound := rfl
@[simp] theorem State.finishSend_rxBound (s : State) (k : ResultKind) : (s.finishSend k).rxBound = s.rxBound := rfl
@[simp] theorem State.finishSend_fPhase (s : State) (k : ResultKind) : (s.finishSend k).fPhase = .idle := rfl
@[simp] theorem State.finishSend_fSeq (s : State) (k : ResultKind) : (s.finishSend k).fSeq = s.fSeq := rfl
@[simp] theorem State.finishSend_fOff (s : State) (k : ResultKind) : (s.finishSend k).fOff = s.fOff := rfl
@[simp] theorem State.finishSend_fChk (s : State) (k : ResultKind) : (s.finishSend k).fChk = s.fChk := rfl
@[simp] theorem State.finishSend_fParam (s : State) (k : ResultKind) : (s.finishSend k).fParam = s.fParam := rfl
@[simp] theorem State.finishSend_sendOp (s : State) (k : ResultKind) : (s.finishSend k).sendOp = none := rfl
@[simp] theorem State.finishSend_rPhase (s : State) (k : ResultKind) : (s.finishSend k).rPhase = s.rPhase := rfl
@[simp] theorem State.finishSend_recvOp (s : State) (k : ResultKind) : (s.finishSend k).recvOp = s.recvOp := rfl
@[simp] theorem State.finishSend_fr (s : State) (k : ResultKind) : (s.finishSend k).fr = s.fr := rfl
@[simp] theorem State.finishSend_lockHeld (s : State) (k : ResultKind) : (s.finishSend k).lockHeld = s.lockHeld := rfl
@[simp] theorem State.finishSend_results (s : State) (k : ResultKind) :
    (s.finishSend k).results = s.results ++ [⟨.send, k, none⟩] := rfl
@[simp] theorem State.finishSend_rxFifo (s : State) (k : ResultKind) : (s.finishSend k).rxFifo = s.rxFifo := rfl
@[simp] theorem State.finishSend_txCalls (s : State) (k : ResultKind) : (s.finishSend k).txCalls = s.txCalls := rfl
@[simp] theorem State.finishSend_hostQueue (s : State) (k : ResultKind) :
    (s.finishSend k).hostQueue = s.hostQueue := rfl
@[simp] theorem State.finishSend_script (s : State) (k : ResultKind) : (s.finishSend k).script = s.script := rfl
@[simp] theorem State.finishSend_txAnswers (s : State) (k : ResultKind) :
    (s.finishSend k).txAnswers = s.txAnswers := rfl
@[simp] theorem State.finishSend_rxAnswers (s : State) (k : ResultKind) :
    (s.finishSend k).rxAnswers = s.rxAnswers := rfl
@[simp] theorem State.finishSend_txDraws (s : State) (k : ResultKind) : (s.finishSend k).txDraws = s.txDraws := rfl
@[simp] theorem State.finishSend_rxDraws (s : State) (k : ResultKind) : (s.finishSend k).rxDraws = s.rxDraws := rfl
@[simp] theorem State.finishSend_eventDraws (s : State) (k : ResultKind) :
    (s.finishSend k).eventDraws = s.eventDraws := rfl

/-! `State.finishReceive` -/

@[simp] theorem State.finishReceive_cfg (s : State) (k : ResultKind) (p : Option Packet) :
    (s.finishReceive k p).cfg = s.cfg := rfl
@[simp] theorem State.finishReceive_slots (s : State) (k : ResultKind) (p : Option Packet) :
    (s.finishReceive k p).slots = s.slots := rfl
@[simp] theorem State.finishReceive_txBound (s : State) (k : ResultKind) (p : Option Packet) :
    (s.finishReceive k p).txBound = s.txBound := rfl
@[simp] theorem State.finishReceive_rxBound (s : State) (k : ResultKind) (p : Option Packet) :
    (s.finishReceive k p).rxBound = s.rxBound := rfl
@[simp] theorem State.finishReceive_fPhase (s : State) (k : ResultKind) (p : Option Packet) :
    (s.finishReceive k p).fPhase = s.fPhase := rfl
@[simp] theorem State.finishReceive_fSeq (s : State) (k : ResultKind) (p : Option Packet) :
    (s.finishReceive k p).fSeq = s.fSeq := rfl
@[simp] theorem State.finishReceive_fOff (s : State) (k : ResultKind) (p : Option Packet) :
    (s.finishReceive k p).fOff = s.fOff := rfl
@[simp] theorem State.finishReceive_fChk (s : State) (k : ResultKind) (p : Option Packet) :
    (s.finishReceive k p).fChk = s.fChk := rfl
@[simp] theorem State.finishReceive_fParam (s : State) (k : ResultKind) (p : Option Packet) :
    (s.finishReceive k p).fParam = s.fParam := rfl
@[simp] theorem State.finishReceive_sendOp (s : State) (k : ResultKind) (p : Option Packet) :
    (s.finishReceive k p).sendOp = s.sendOp := rfl
@[simp] theorem State.finishReceive_rPhase (s : State) (k : ResultKind) (p : Option Packet) :
    (s.finishReceive k p).rPhase = .idle := rfl
@[simp] theorem State.finishReceive_recvOp (s : State) (k : ResultKind) (p : Option Packet) :
    (s.finishReceive k p).recvOp = none := rfl
@[simp] theorem State.finishReceive_fr (s : State) (k : ResultKind) (p : Option Packet) :
    (s.finishReceive k p).fr = s.fr := rfl
@[simp] theorem State.finishReceive_lockHeld (s : State) (k : ResultKind) (p : Option Packet) :
    (s.finishReceive k p).lockHeld = s.lockHeld := rfl
@[simp] theorem State.finishReceive_results (s : State) (k : ResultKind) (p : Option Packet) :
    (s.finishReceive k p).results = s.results ++ [⟨.receive, k, p⟩] := rfl
@[simp] theorem State.finishReceive_rxFifo (s : State) (k : ResultKind) (p : Option Packet) :
    (s.finishReceive k p).rxFifo = s.rxFifo := rfl
@[simp] theorem State.finishReceive_txCalls (s : State) (k : ResultKind) (p : Option Packet) :
    (s.finishReceive k p).txCalls = s.txCalls := rfl
@[simp] theorem State.finishReceive_hostQueue (s : State) (k : ResultKind) (p : Option Packet) :
    (s.finishReceive k p).hostQueue = s.hostQueue := rfl
@[simp] theorem State.finishReceive_script (s : State) (k : ResultKind) (p : Option Packet) :
    (s.finishReceive k p).script = s.script := rfl
@[simp] theorem State.finishReceive_txAnswers (s : State) (k : ResultKind) (p : Option Packet) :
    (s.finishReceive k p).txAnswers = s.txAnswers := rfl
@[simp] theorem State.finishReceive_rxAnswers (s : State) (k : ResultKind) (p : Option Packet) :
    (s.finishReceive k p).rxAnswers = s.rxAnswers := rfl
@[simp] theorem State.finishReceive_txDraws (s : State) (k : ResultKind) (p : Option Packet) :
    (s.finishReceive k p).txDraws = s.txDraws := rfl
@[simp] theorem State.finishReceive_rxDraws (s : State) (k : ResultKind) (p : Option Packet) :
    (s.finishReceive k p).rxDraws = s.rxDraws := rfl
@[simp] theorem State.finishReceive_eventDraws (s : State) (k : ResultKind) (p : Option Packet) :
    (s.finishReceive k p).eventDraws = s.eventDraws := rfl

/-! `State.transmit` -/

@[simp] theorem State.transmit_cfg (s : State) (bs : List Byte) : (s.transmit bs).cfg = s.cfg := rfl
@[simp] theorem State.transmit_slots (s : State) (bs : List Byte) : (s.transmit bs).slots = s.slots := rfl
@[simp] theorem State.transmit_txBound (s : State) (bs : List Byte) : (s.transmit bs).txBound = s.txBound := rfl
@[simp] theorem State.transmit_rxBound (s : State) (bs : List Byte) : (s.transmit bs).rxBound = s.rxBound := rfl
@[simp] theorem State.transmit_fPhase (s : State) (bs : List Byte) : (s.transmit bs).fPhase = s.fPhase := rfl
@[simp] theorem State.transmit_fSeq (s : State) (bs : List Byte) : (s.transmit bs).fSeq = s.fSeq := rfl
@[simp] theorem State.transmit_fOff (s : State) (bs : List Byte) : (s.transmit bs).fOff = s.fOff := rfl
@[simp] theorem State.transmit_fChk (s : State) (bs : List Byte) : (s.transmit bs).fChk = s.fChk := rfl
@[simp] theorem State.transmit_fParam (s : State) (bs : List Byte) : (s.transmit bs).fParam = s.fParam := rfl
@[simp] theorem State.transmit_sendOp (s : State) (bs : List Byte) : (s.transmit bs).sendOp = s.sendOp := rfl
@[simp] theorem State.transmit_rPhase (s : State) (bs : List Byte) : (s.transmit bs).rPhase = s.rPhase := rfl
@[simp] theorem State.transmit_recvOp (s : State) (bs : List Byte) : (s.transmit bs).recvOp = s.recvOp := rfl
@[simp] theorem State.transmit_fr (s : State) (bs : List Byte) : (s.transmit bs).fr = s.fr := rfl
@[simp] theorem State.transmit_lockHeld (s : State) (bs : List Byte) : (s.transmit bs).lockHeld = s.lockHeld := rfl
@[simp] theorem State.transmit_results (s : State) (bs : List Byte) : (s.transmit bs).results = s.results := rfl
@[simp] theorem State.transmit_rxFifo (s : State) (bs : List Byte) : (s.transmit bs).rxFifo = s.rxFifo := rfl
@[simp] theorem State.transmit_txCalls (s : State) (bs : List Byte) :
    (s.transmit bs).txCalls = s.txCalls ++ [⟨bs, s.nextTxAnswer⟩] := rfl
@[simp] theorem State.transmit_hostQueue (s : State) (bs : List Byte) : (s.transmit bs).hostQueue = s.hostQueue := rfl
@[simp] theorem State.transmit_script (s : State) (bs : List Byte) : (s.transmit bs).script = s.script := rfl
@[simp] theorem State.transmit_txAnswers (s : State) (bs : List Byte) :
    (s.transmit bs).txAnswers = s.txAnswers.tail := rfl
@[simp] theorem State.transmit_rxAnswers (s : State) (bs : List Byte) : (s.transmit bs).rxAnswers = s.rxAnswers := rfl
@[simp] theorem State.transmit_txDraws (s : State) (bs : List Byte) :
    (s.transmit bs).txDraws = if s.txAnswers = [] then s.txDraws + 1 else s.txDraws := rfl
@[simp] theorem State.transmit_rxDraws (s : State) (bs : List Byte) : (s.transmit bs).rxDraws = s.rxDraws := rfl
@[simp] theorem State.transmit_eventDraws (s : State) (bs : List Byte) :
    (s.transmit bs).eventDraws = s.eventDraws := rfl

/-! `State.afterReceive` -/

@[simp] theorem State.afterReceive_cfg (s : State) (n : Nat) : (s.afterReceive n).cfg = s.cfg := rfl
@[simp] theorem State.afterReceive_slots (s : State) (n : Nat) : (s.afterReceive n).slots = s.slots := rfl
@[simp] theorem State.afterReceive_txBound (s : State) (n : Nat) : (s.afterReceive n).txBound = s.txBound := rfl
@[simp] theorem State.afterReceive_rxBound (s : State) (n : Nat) : (s.afterReceive n).rxBound = s.rxBound := rfl
@[simp] theorem State.afterReceive_fPhase (s : State) (n : Nat) : (s.afterReceive n).fPhase = s.fPhase := rfl
@[simp] theorem State.afterReceive_fSeq (s : State) (n : Nat) : (s.afterReceive n).fSeq = s.fSeq := rfl
@[simp] theorem State.afterReceive_fOff (s : State) (n : Nat) : (s.afterReceive n).fOff = s.fOff := rfl
@[simp] theorem State.afterReceive_fChk (s : State) (n : Nat) : (s.afterReceive n).fChk = s.fChk := rfl
@[simp] theorem State.afterReceive_fParam (s : State) (n : Nat) : (s.afterReceive n).fParam = s.fParam := rfl
@[simp] theorem State.afterReceive_sendOp (s : State) (n : Nat) : (s.afterReceive n).sendOp = s.sendOp := rfl
@[simp] theorem State.afterReceive_rPhase (s : State) (n : Nat) : (s.afterReceive n).rPhase = s.rPhase := rfl
@[simp] theorem State.afterReceive_recvOp (s : State) (n : Nat) : (s.afterReceive n).recvOp = s.recvOp := rfl
@[simp] theorem State.afterReceive_fr (s : State) (n : Nat) : (s.afterReceive n).fr = s.fr := rfl
@[simp] theorem State.afterReceive_lockHeld (s : State) (n : Nat) : (s.afterReceive n).lockHeld = s.lockHeld := rfl
@[simp] theorem State.afterReceive_results (s : State) (n : Nat) : (s.afterReceive n).results = s.results := rfl
@[simp] theorem State.afterReceive_rxFifo (s : State) (n : Nat) :
    (s.afterReceive n).rxFifo = if s.received n = none then s.rxFifo else s.rxFifo.drop n := rfl
@[simp] theorem State.afterReceive_txCalls (s : State) (n : Nat) : (s.afterReceive n).txCalls = s.txCalls := rfl
@[simp] theorem State.afterReceive_hostQueue (s : State) (n : Nat) : (s.afterReceive n).hostQueue = s.hostQueue := rfl
@[simp] theorem State.afterReceive_script (s : State) (n : Nat) : (s.afterReceive n).script = s.script := rfl
@[simp] theorem State.afterReceive_txAnswers (s : State) (n : Nat) : (s.afterReceive n).txAnswers = s.txAnswers := rfl
@[simp] theorem State.afterReceive_rxAnswers (s : State) (n : Nat) :
    (s.afterReceive n).rxAnswers = s.rxAnswers.tail := rfl
@[simp] theorem State.afterReceive_txDraws (s : State) (n : Nat) : (s.afterReceive n).txDraws = s.txDraws := rfl
@[simp] theorem State.afterReceive_rxDraws (s : State) (n : Nat) :
    (s.afterReceive n).rxDraws = if s.rxAnswers = [] then s.rxDraws + 1 else s.rxDraws := rfl
@[simp] theorem State.afterReceive_eventDraws (s : State) (n : Nat) :
    (s.afterReceive n).eventDraws = s.eventDraws := rfl

/-! `State.setupSend` -/

@[simp] theorem State.setupSend_cfg (s : State) (op : SendOp) : (s.setupSend op).cfg = s.cfg := rfl
@[simp] theorem State.setupSend_slots (s : State) (op : SendOp) : (s.setupSend op).slots = s.slots := rfl
@[simp] theorem State.setupSend_txBound (s : State) (op : SendOp) : (s.setupSend op).txBound = s.txBound := rfl
@[simp] theorem State.setupSend_rxBound (s : State) (op : SendOp) : (s.setupSend op).rxBound = s.rxBound := rfl
@[simp] theorem State.setupSend_fPhase (s : State) (op : SendOp) : (s.setupSend op).fPhase = .start := rfl
@[simp] theorem State.setupSend_fSeq (s : State) (op : SendOp) : (s.setupSend op).fSeq = 0 := rfl
@[simp] theorem State.setupSend_fOff (s : State) (op : SendOp) : (s.setupSend op).fOff = 0 := rfl
@[simp] theorem State.setupSend_fChk (s : State) (op : SendOp) : (s.setupSend op).fChk = chkInit s.cfg.checksum := rfl
@[simp] theorem State.setupSend_fParam (s : State) (op : SendOp) : (s.setupSend op).fParam = op.param := rfl
@[simp] theorem State.setupSend_sendOp (s : State) (op : SendOp) : (s.setupSend op).sendOp = s.sendOp := rfl
@[simp] theorem State.setupSend_rPhase (s : State) (op : SendOp) : (s.setupSend op).rPhase = s.rPhase := rfl
@[simp] theorem State.setupSend_recvOp (s : State) (op : SendOp) : (s.setupSend op).recvOp = s.recvOp := rfl
@[simp] theorem State.setupSend_fr (s : State) (op : SendOp) : (s.setupSend op).fr = s.fr := rfl
@[simp] theorem State.setupSend_lockHeld (s : State) (op : SendOp) : (s.setupSend op).lockHeld = s.lockHeld := rfl
@[simp] theorem State.setupSend_results (s : State) (op : SendOp) : (s.setupSend op).results = s.results := rfl
@[simp] theorem State.setupSend_rxFifo (s : State) (op : SendOp) : (s.setupSend op).rxFifo = s.rxFifo := rfl
@[simp] theorem State.setupSend_txCalls (s : State) (op : SendOp) : (s.setupSend op).txCalls = s.txCalls := rfl
@[simp] theorem State.setupSend_hostQueue (s : State) (op : SendOp) : (s.setupSend op).hostQueue = s.hostQueue := rfl
@[simp] theorem State.setupSend_script (s : State) (op : SendOp) : (s.setupSend op).script = s.script := rfl
@[simp] theorem State.setupSend_txAnswers (s : State) (op : SendOp) : (s.setupSend op).txAnswers = s.txAnswers := rfl
@[simp] theorem State.setupSend_rxAnswers (s : State) (op : SendOp) : (s.setupSend op).rxAnswers = s.rxAnswers := rfl
@[simp] theorem State.setupSend_txDraws (s : State) (op : SendOp) : (s.setupSend op).txDraws = s.txDraws := rfl
@[simp] theorem State.setupSend_rxDraws (s : State) (op : SendOp) : (s.setupSend op).rxDraws = s.rxDraws := rfl
@[simp] theorem State.setupSend_eventDraws (s : State) (op : SendOp) : (s.setupSend op).eventDraws = s.eventDraws := rfl
@[simp] theorem State.setupSend_nextTxAnswer (s : State) (op : SendOp) :
    (s.setupSend op).nextTxAnswer = s.nextTxAnswer := rfl

/-! `State.afterStart` -/

@[simp] theorem State.afterStart_cfg (s : State) (op : SendOp) : (s.afterStart op).cfg = s.cfg := rfl
@[simp] theorem State.afterStart_slots (s : State) (op : SendOp) : (s.afterStart op).slots = s.slots := rfl
@[simp] theorem State.afterStart_txBound (s : State) (op : SendOp) : (s.afterStart op).txBound = s.txBound := rfl
@[simp] theorem State.afterStart_rxBound (s : State) (op : SendOp) : (s.afterStart op).rxBound = s.rxBound := rfl
@[simp] theorem State.afterStart_fPhase (s : State) (op : SendOp) :
    (s.afterStart op).fPhase = if 0 < op.length.toNat then .data else .finish := rfl
@[simp] theorem State.afterStart_fSeq (s : State) (op : SendOp) : (s.afterStart op).fSeq = s.fSeq := rfl
@[simp] theorem State.afterStart_fOff (s : State) (op : SendOp) : (s.afterStart op).fOff = s.fOff := rfl
@[simp] theorem State.afterStart_fChk (s : State) (op : SendOp) : (s.afterStart op).fChk = s.fChk := rfl
@[simp] theorem State.afterStart_fParam (s : State) (op : SendOp) : (s.afterStart op).fParam = s.fParam := rfl
@[simp] theorem State.afterStart_sendOp (s : State) (op : SendOp) : (s.afterStart op).sendOp = s.sendOp := rfl
@[simp] theorem State.afterStart_rPhase (s : State) (op : SendOp) : (s.afterStart op).rPhase = s.rPhase := rfl
@[simp] theorem State.afterStart_recvOp (s : State) (op : SendOp) : (s.afterStart op).recvOp = s.recvOp := rfl
@[simp] theorem State.afterStart_fr (s : State) (op : SendOp) : (s.afterStart op).fr = s.fr := rfl
@[simp] theorem State.afterStart_lockHeld (s : State) (op : SendOp) : (s.afterStart op).lockHeld = s.lockHeld := rfl
@[simp] theorem State.afterStart_results (s : State) (op : SendOp) : (s.afterStart op).results = s.results := rfl
@[simp] theorem State.afterStart_rxFifo (s : State) (op : SendOp) : (s.afterStart op).rxFifo = s.rxFifo := rfl
@[simp] theorem State.afterStart_txCalls (s : State) (op : SendOp) : (s.afterStart op).txCalls = s.txCalls := rfl
@[simp] theorem State.afterStart_hostQueue (s : State) (op : SendOp) : (s.afterStart op).hostQueue = s.hostQueue := rfl
@[simp] theorem State.afterStart_script (s : State) (op : SendOp) : (s.afterStart op).script = s.script := rfl
@[simp] theorem State.afterStart_txAnswers (s : State) (op : SendOp) : (s.afterStart op).txAnswers = s.txAnswers := rfl
@[simp] theorem State.afterStart_rxAnswers (s : State) (op : SendOp) : (s.afterStart op).rxAnswers = s.rxAnswers := rfl
@[simp] theorem State.afterStart_txDraws (s : State) (op : SendOp) : (s.afterStart op).txDraws = s.txDraws := rfl
@[simp] theorem State.afterStart_rxDraws (s : State) (op : SendOp) : (s.afterStart op).rxDraws = s.rxDraws := rfl
@[simp] theorem State.afterStart_eventDraws (s : State) (op : SendOp) :
    (s.afterStart op).eventDraws = s.eventDraws := rfl

/-! `State.afterData` -/

@[simp] theorem State.afterData_cfg (s : State) (op : SendOp) : (s.afterData op).cfg = s.cfg := rfl
@[simp] theorem State.afterData_slots (s : State) (op : SendOp) : (s.afterData op).slots = s.slots := rfl
@[simp] theorem State.afterData_txBound (s : State) (op : SendOp) : (s.afterData op).txBound = s.txBound := rfl
@[simp] theorem State.afterData_rxBound (s : State) (op : SendOp) : (s.afterData op).rxBound = s.rxBound := rfl
@[simp] theorem State.afterData_fPhase (s : State) (op : SendOp) :
    (s.afterData op).fPhase = if s.fOff.toNat + chunkLen op.length.toNat s.fOff.toNat < op.length.toNat then .data else .finish := rfl
@[simp] theorem State.afterData_fSeq (s : State) (op : SendOp) : (s.afterData op).fSeq = s.fSeq + 1 := rfl
@[simp] theorem State.afterData_fOff (s : State) (op : SendOp) :
    (s.afterData op).fOff = s.fOff + BitVec.ofNat 9 (chunkLen op.length.toNat s.fOff.toNat) := rfl
@[simp] theorem State.afterData_fChk (s : State) (op : SendOp) :
    (s.afterData op).fChk = checksum8 s.cfg.checksum s.fChk (chunkAt op s.fOff.toNat) := rfl
@[simp] theorem State.afterData_fParam (s : State) (op : SendOp) : (s.afterData op).fParam = s.fParam := rfl
@[simp] theorem State.afterData_sendOp (s : State) (op : SendOp) : (s.afterData op).sendOp = s.sendOp := rfl
@[simp] theorem State.afterData_rPhase (s : State) (op : SendOp) : (s.afterData op).rPhase = s.rPhase := rfl
@[simp] theorem State.afterData_recvOp (s : State) (op : SendOp) : (s.afterData op).recvOp = s.recvOp := rfl
@[simp] theorem State.afterData_fr (s : State) (op : SendOp) : (s.afterData op).fr = s.fr := rfl
@[simp] theorem State.afterData_lockHeld (s : State) (op : SendOp) : (s.afterData op).lockHeld = s.lockHeld := rfl
@[simp] theorem State.afterData_results (s : State) (op : SendOp) : (s.afterData op).results = s.results := rfl
@[simp] theorem State.afterData_rxFifo (s : State) (op : SendOp) : (s.afterData op).rxFifo = s.rxFifo := rfl
@[simp] theorem State.afterData_txCalls (s : State) (op : SendOp) : (s.afterData op).txCalls = s.txCalls := rfl
@[simp] theorem State.afterData_hostQueue (s : State) (op : SendOp) : (s.afterData op).hostQueue = s.hostQueue := rfl
@[simp] theorem State.afterData_script (s : State) (op : SendOp) : (s.afterData op).script = s.script := rfl
@[simp] theorem State.afterData_txAnswers (s : State) (op : SendOp) : (s.afterData op).txAnswers = s.txAnswers := rfl
@[simp] theorem State.afterData_rxAnswers (s : State) (op : SendOp) : (s.afterData op).rxAnswers = s.rxAnswers := rfl
@[simp] theorem State.afterData_txDraws (s : State) (op : SendOp) : (s.afterData op).txDraws = s.txDraws := rfl
@[simp] theorem State.afterData_rxDraws (s : State) (op : SendOp) : (s.afterData op).rxDraws = s.rxDraws := rfl
@[simp] theorem State.afterData_eventDraws (s : State) (op : SendOp) :
    (s.afterData op).eventDraws = s.eventDraws := rfl

/-! `State.afterEvent` -/

@[simp] theorem State.afterEvent_cfg (s : State) : (s.afterEvent).cfg = s.cfg := rfl
@[simp] theorem State.afterEvent_slots (s : State) : (s.afterEvent).slots = s.slots := rfl
@[simp] theorem State.afterEvent_txBound (s : State) : (s.afterEvent).txBound = s.txBound := rfl
@[simp] theorem State.afterEvent_rxBound (s : State) : (s.afterEvent).rxBound = s.rxBound := rfl
@[simp] theorem State.afterEvent_fPhase (s : State) : (s.afterEvent).fPhase = s.fPhase := rfl
@[simp] theorem State.afterEvent_fSeq (s : State) : (s.afterEvent).fSeq = s.fSeq := rfl
@[simp] theorem State.afterEvent_fOff (s : State) : (s.afterEvent).fOff = s.fOff := rfl
@[simp] theorem State.afterEvent_fChk (s : State) : (s.afterEvent).fChk = s.fChk := rfl
@[simp] theorem State.afterEvent_fParam (s : State) : (s.afterEvent).fParam = s.fParam := rfl
@[simp] theorem State.afterEvent_sendOp (s : State) : (s.afterEvent).sendOp = s.sendOp := rfl
@[simp] theorem State.afterEvent_rPhase (s : State) : (s.afterEvent).rPhase = s.rPhase := rfl
@[simp] theorem State.afterEvent_recvOp (s : State) : (s.afterEvent).recvOp = s.recvOp := rfl
@[simp] theorem State.afterEvent_fr (s : State) : (s.afterEvent).fr = s.fr := rfl
@[simp] theorem State.afterEvent_lockHeld (s : State) : (s.afterEvent).lockHeld = s.lockHeld := rfl
@[simp] theorem State.afterEvent_results (s : State) : (s.afterEvent).results = s.results := rfl
@[simp] theorem State.afterEvent_rxFifo (s : State) : (s.afterEvent).rxFifo = s.rxFifo := rfl
@[simp] theorem State.afterEvent_txCalls (s : State) : (s.afterEvent).txCalls = s.txCalls := rfl
@[simp] theorem State.afterEvent_hostQueue (s : State) : (s.afterEvent).hostQueue = s.hostQueue := rfl
@[simp] theorem State.afterEvent_script (s : State) : (s.afterEvent).script = s.script.tail := rfl
@[simp] theorem State.afterEvent_txAnswers (s : State) : (s.afterEvent).txAnswers = s.txAnswers := rfl
@[simp] theorem State.afterEvent_rxAnswers (s : State) : (s.afterEvent).rxAnswers = s.rxAnswers := rfl
@[simp] theorem State.afterEvent_txDraws (s : State) : (s.afterEvent).txDraws = s.txDraws := rfl
@[simp] theorem State.afterEvent_rxDraws (s : State) : (s.afterEvent).rxDraws = s.rxDraws := rfl
@[simp] theorem State.afterEvent_eventDraws (s : State) :
    (s.afterEvent).eventDraws = if s.script = [] then s.eventDraws + 1 else s.eventDraws := rfl

/-! `State.resetBlock` -/

@[simp] theorem State.resetBlock_cfg (s : State) : (s.resetBlock).cfg = s.cfg := rfl
@[simp] theorem State.resetBlock_slots (s : State) :
    (s.resetBlock).slots = List.replicate s.slots.length Slot.reset := rfl
@[simp] theorem State.resetBlock_txBound (s : State) : (s.resetBlock).txBound = false := rfl
@[simp] theorem State.resetBlock_rxBound (s : State) : (s.resetBlock).rxBound = false := rfl
@[simp] theorem State.resetBlock_fPhase (s : State) : (s.resetBlock).fPhase = .idle := rfl
@[simp] theorem State.resetBlock_fSeq (s : State) : (s.resetBlock).fSeq = 0 := rfl
@[simp] theorem State.resetBlock_fOff (s : State) : (s.resetBlock).fOff = 0 := rfl
@[simp] theorem State.resetBlock_fChk (s : State) : (s.resetBlock).fChk = 0 := rfl
@[simp] theorem State.resetBlock_fParam (s : State) : (s.resetBlock).fParam = 0 := rfl
@[simp] theorem State.resetBlock_sendOp (s : State) : (s.resetBlock).sendOp = none := rfl
@[simp] theorem State.resetBlock_rPhase (s : State) : (s.resetBlock).rPhase = .idle := rfl
@[simp] theorem State.resetBlock_recvOp (s : State) : (s.resetBlock).recvOp = none := rfl
@[simp] theorem State.resetBlock_fr (s : State) : (s.resetBlock).fr = FrameReg.reset := rfl
@[simp] theorem State.resetBlock_lockHeld (s : State) : (s.resetBlock).lockHeld = false := rfl
@[simp] theorem State.resetBlock_results (s : State) : (s.resetBlock).results = s.results := rfl
@[simp] theorem State.resetBlock_rxFifo (s : State) : (s.resetBlock).rxFifo = s.rxFifo := rfl
@[simp] theorem State.resetBlock_txCalls (s : State) : (s.resetBlock).txCalls = s.txCalls := rfl
@[simp] theorem State.resetBlock_hostQueue (s : State) : (s.resetBlock).hostQueue = s.hostQueue := rfl
@[simp] theorem State.resetBlock_script (s : State) : (s.resetBlock).script = s.script := rfl
@[simp] theorem State.resetBlock_txAnswers (s : State) : (s.resetBlock).txAnswers = s.txAnswers := rfl
@[simp] theorem State.resetBlock_rxAnswers (s : State) : (s.resetBlock).rxAnswers = s.rxAnswers := rfl
@[simp] theorem State.resetBlock_txDraws (s : State) : (s.resetBlock).txDraws = s.txDraws := rfl
@[simp] theorem State.resetBlock_rxDraws (s : State) : (s.resetBlock).rxDraws = s.rxDraws := rfl
@[simp] theorem State.resetBlock_eventDraws (s : State) : (s.resetBlock).eventDraws = s.eventDraws := rfl

/-! `Slot.start` -/

@[simp] theorem Slot.start_tag (sl : Slot) (f : Fields) : (sl.start f).tag = .assembling := rfl
@[simp] theorem Slot.start_accLen (sl : Slot) (f : Fields) : (sl.start f).accLen = 0 := rfl
@[simp] theorem Slot.start_fn (sl : Slot) (f : Fields) : (sl.start f).fn = f.fn := rfl
@[simp] theorem Slot.start_src (sl : Slot) (f : Fields) : (sl.start f).src = f.src := rfl
@[simp] theorem Slot.start_dst (sl : Slot) (f : Fields) : (sl.start f).dst = f.dst := rfl
@[simp] theorem Slot.start_param (sl : Slot) (f : Fields) : (sl.start f).param = sl.param := rfl
@[simp] theorem Slot.start_buf (sl : Slot) (f : Fields) : (sl.start f).buf = sl.buf := rfl

/-! `Slot.abort` -/

@[simp] theorem Slot.abort_tag (sl : Slot) : (sl.abort).tag = .idle := rfl
@[simp] theorem Slot.abort_accLen (sl : Slot) : (sl.abort).accLen = 0 := rfl
@[simp] theorem Slot.abort_fn (sl : Slot) : (sl.abort).fn = sl.fn := rfl
@[simp] theorem Slot.abort_src (sl : Slot) : (sl.abort).src = sl.src := rfl
@[simp] theorem Slot.abort_dst (sl : Slot) : (sl.abort).dst = sl.dst := rfl
@[simp] theorem Slot.abort_param (sl : Slot) : (sl.abort).param = sl.param := rfl
@[simp] theorem Slot.abort_buf (sl : Slot) : (sl.abort).buf = sl.buf := rfl

/-! `Slot.complete` -/

@[simp] theorem Slot.complete_tag (sl : Slot) (p : Byte) : (sl.complete p).tag = .idle := rfl
@[simp] theorem Slot.complete_accLen (sl : Slot) (p : Byte) : (sl.complete p).accLen = 0 := rfl
@[simp] theorem Slot.complete_fn (sl : Slot) (p : Byte) : (sl.complete p).fn = sl.fn := rfl
@[simp] theorem Slot.complete_src (sl : Slot) (p : Byte) : (sl.complete p).src = sl.src := rfl
@[simp] theorem Slot.complete_dst (sl : Slot) (p : Byte) : (sl.complete p).dst = sl.dst := rfl
@[simp] theorem Slot.complete_param (sl : Slot) (p : Byte) : (sl.complete p).param = p := rfl
@[simp] theorem Slot.complete_buf (sl : Slot) (p : Byte) : (sl.complete p).buf = sl.buf := rfl

end Sys2Proof.Machine
end

