-- ==== Sys2Proof/Laws/Ops.lean ====
section
/-! SUPPORT. One lemma per shared operation that says everything it can do. -/

namespace Sys2Proof.Machine

@[simp] theorem andThen_next (s : State) (f : State → Outcome) : andThen (.next s) f = f s := rfl
@[simp] theorem andThen_fault (r : Fault) (f : State → Outcome) : andThen (.fault r) f = .fault r := rfl
@[simp] theorem andThen_refused (r : Refusal) (f : State → Outcome) : andThen (.refused r) f = .refused r := rfl

/-- If a continued outcome is a next state, then so was the first. -/
theorem andThen_eq_next {o : Outcome} {f : State → Outcome} {t : State} :
    andThen o f = .next t ↔ ∃ s, o = .next s ∧ f s = .next t := by
  cases o <;> simp [andThen]

/-! The conditions, as statements. -/

theorem Slot.inProgress_eq_true {sl : Slot} : sl.inProgress = true ↔ sl.tag = .assembling := by
  simp [Slot.inProgress]

theorem Slot.assembles_eq_true {fn : Addr} {sl : Slot} :
    sl.assembles fn = true ↔ sl.inProgress = true ∧ sl.fn = fn := by
  simp [Slot.assembles]

theorem wouldOverflow_eq_true {accLen : Len} {len : BitVec 4} :
    wouldOverflow accLen len = true ↔ maxPacketPayload < accLen.toNat + len.toNat := by
  simp only [wouldOverflow, decide_eq_true_eq]

theorem wouldOverflow_eq_false {accLen : Len} {len : BitVec 4} :
    wouldOverflow accLen len = false ↔ accLen.toNat + len.toNat ≤ maxPacketPayload := by
  simp only [wouldOverflow, decide_eq_false_iff_not, Nat.not_lt]

theorem countMismatch_eq_false {count : Byte} {accLen : Len} :
    countMismatch count accLen = false ↔ count.toNat = (accLen.toNat + 7) / 8 := by
  simp only [countMismatch, decide_eq_false_iff_not, Ne, Decidable.not_not]
  rfl

theorem checksumMismatch_eq_false {u : ChecksumUnit} {chk : Byte} {bytes : List Byte} :
    checksumMismatch u chk bytes = false ↔ chk = checksum8 u (chkInit u) bytes := by
  simp [checksumMismatch]

/-- A slot of the table is a member of it. -/
theorem State.slot_mem (s : State) (i : Nat) (h : i < s.slots.length) : s.slot i ∈ s.slots := by
  simp [State.slot, List.getD_eq_getElem?_getD, List.getElem?_eq_getElem h]

theorem State.slot_eq_getElem (s : State) (i : Nat) (h : i < s.slots.length) : s.slot i = s.slots[i] := by
  simp [State.slot, List.getD_eq_getElem?_getD, List.getElem?_eq_getElem h]

/-- What reading a slot gives after one was written. -/
theorem State.slot_setSlot (s : State) (i j : Nat) (sl : Slot) (h : i < s.slots.length) :
    (s.setSlot i sl).slot j = if i = j then sl else s.slot j := by
  simp only [State.slot, State.setSlot, List.getD_eq_getElem?_getD, List.getElem?_set]
  by_cases hij : i = j
  · subst hij; simp [h]
  · simp [hij]

/-- An update that leaves the slot table alone leaves every slot alone. -/
theorem State.slot_congr {s t : State} (h : t.slots = s.slots) (i : Nat) : t.slot i = s.slot i := by
  simp [State.slot, h]

/-- RESOLVE answers a slot of the table: the lowest one that assembles the stream, or, where none does, the
lowest idle one (spec/43_slot_controller.md R141, R143). -/
theorem resolve_eq_some {slots : List Slot} {fn : Addr} {i : Nat} (h : resolve slots fn = some i) :
    ∃ hi : i < slots.length,
      (slots[i].assembles fn = true ∧ ∀ j (hj : j < i), (slots[j]'(hj.trans hi)).assembles fn = false) ∨
      ((∀ sl ∈ slots, sl.assembles fn = false) ∧ slots[i].inProgress = false ∧
        ∀ j (hj : j < i), (slots[j]'(hj.trans hi)).inProgress = true) := by
  unfold resolve at h
  split at h
  · rename_i k hk
    obtain rfl := Option.some.inj h
    obtain ⟨hi, hp, hlow⟩ := List.findIdx?_eq_some_iff_getElem.1 hk
    exact ⟨hi, .inl ⟨hp, fun j hj => by simpa using hlow j hj⟩⟩
  · rename_i hk
    obtain ⟨hi, hp, hlow⟩ := List.findIdx?_eq_some_iff_getElem.1 h
    refine ⟨hi, .inr ⟨fun sl hsl => ?_, by simpa using hp, fun j hj => by simpa using hlow j hj⟩⟩
    simpa using List.findIdx?_eq_none_iff.1 hk sl hsl

/-- RESOLVE answers NoFreeSlot exactly when every slot assembles, and none the stream. -/
theorem resolve_eq_none {slots : List Slot} {fn : Addr} :
    resolve slots fn = none ↔ ∀ sl ∈ slots, sl.inProgress = true ∧ sl.assembles fn = false := by
  unfold resolve
  split
  · rename_i k hk
    obtain ⟨hi, hp, -⟩ := List.findIdx?_eq_some_iff_getElem.1 hk
    constructor
    · intro h; cases h
    · intro h
      have := (h _ (List.getElem_mem hi)).2
      simp [this] at hp
  · rename_i hk
    have hk := List.findIdx?_eq_none_iff.1 hk
    rw [List.findIdx?_eq_none_iff]
    exact ⟨fun h sl hsl => ⟨by simpa using h sl hsl, by simpa using hk sl hsl⟩, fun h sl hsl => by simp [(h sl hsl).1]⟩

/-- What step C can do: wait for the lock, or run with it and let it go. -/
theorem underLock_cases (body : State → Outcome) (s : State) :
    (s.lockHeld = true ∧ underLock body s = .next s) ∨
    (s.lockHeld = false ∧ underLock body s = andThen (body s.acquire) fun t => .next t.release) := by
  unfold underLock
  cases h : s.lockHeld <;> simp

/-- What the resolution can do. -/
theorem resolveThen_cases (fn : Addr) (branch : Nat → State → Outcome) (s : State) :
    (resolve s.slots fn = none ∧ resolveThen fn branch s = .next (s.finishReceive .noFreeSlot none)) ∨
    (∃ i, resolve s.slots fn = some i ∧ resolveThen fn branch s = branch i s) := by
  unfold resolveThen
  cases h : resolve s.slots fn <;> simp

/-- What one `transmit` call of the fragmenter can lead to. -/
theorem emit_cases (bytes : List Byte) (onOk : State → State) (s : State) :
    (s.nextTxAnswer = .ok ∧ emit bytes onOk s = .next (onOk (s.transmit bytes))) ∨
    (∃ n, s.nextTxAnswer = .error n ∧ emit bytes onOk s = .next ((s.transmit bytes).finishSend .sendFailure)) := by
  unfold emit
  cases h : s.nextTxAnswer <;> simp

/-- The fragmenter is busy exactly when it holds an operation or stands between two frames. -/
theorem State.sendBusy_eq_false {s : State} : s.sendBusy = false ↔ s.sendOp = none ∧ s.fPhase = .idle := by
  simp [State.sendBusy]

/-- The reassembler is busy exactly when it stands between two steps. -/
theorem State.receiveBusy_eq_false {s : State} : s.receiveBusy = false ↔ s.rPhase = .idle := by
  simp [State.receiveBusy]

/-- A SEND_PACKET is issued to a free fragmenter only. -/
theorem State.unitFree_send {s : State} {op : SendOp} :
    s.unitFree (.sendPacket op) = true ↔ s.sendOp = none ∧ s.fPhase = .idle := by
  simp [State.unitFree, State.sendBusy_eq_false]

/-- A RECEIVE_ONE_FRAME is issued to a free reassembler only. -/
theorem State.unitFree_receive {s : State} {a : Addr} : s.unitFree (.receiveOneFrame a) = true ↔ s.rPhase = .idle := by
  simp [State.unitFree, State.receiveBusy_eq_false]

/-- INIT is issued when neither unit runs. -/
theorem State.unitFree_init {s : State} {tx rx : Bool} :
    s.unitFree (.init tx rx) = true ↔ (s.sendOp = none ∧ s.fPhase = .idle) ∧ s.rPhase = .idle := by
  simp [State.unitFree, State.sendBusy_eq_false, State.receiveBusy_eq_false]

/-- SEND_PACKET to a free fragmenter is the two tests before its first step. -/
theorem exec_sendPacket_free (op : SendOp) (s : State) (hp : s.fPhase = .idle) (ho : s.sendOp = none) :
    exec (.sendPacket op) s = acceptSend op s := by
  simp [exec, execSendPacket, hp, ho]

/-- The first step of an accepted SEND_PACKET is the whole of EMIT_START. -/
theorem exec_sendPacket_held (op op' : SendOp) (s : State) (hp : s.fPhase = .idle) (ho : s.sendOp = some op') :
    exec (.sendPacket op) s = emitStart op s := by
  simp [exec, execSendPacket, hp, ho]

/-- All that EMIT_START can do, in its one step. -/
theorem emitStart_cases (op : SendOp) (s : State) :
    (s.nextTxAnswer = .ok ∧
      emitStart op s = .next (((s.setupSend op).transmit (startBytes s.cfg op)).afterStart op)) ∨
    (∃ n, s.nextTxAnswer = .error n ∧
      emitStart op s = .next (((s.setupSend op).transmit (startBytes s.cfg op)).finishSend .sendFailure)) :=
  emit_cases (startBytes s.cfg op) (State.afterStart op) (s.setupSend op)

/-- What `ReceiveExact` answers, and what it leaves in the FIFO. -/
theorem received_cases (s : State) (n : Nat) :
    (s.nextRxAnswer = .serve ∧ n ≤ s.rxFifo.length ∧ s.received n = some (s.rxFifo.take n) ∧
      (s.afterReceive n).rxFifo = s.rxFifo.drop n) ∨
    ((s.nextRxAnswer = .fail ∨ s.rxFifo.length < n) ∧ s.received n = none ∧
      (s.afterReceive n).rxFifo = s.rxFifo) := by
  by_cases h : s.nextRxAnswer = .serve ∧ n ≤ s.rxFifo.length
  · exact .inl ⟨h.1, h.2, by simp [State.received, h], by simp [State.received, h]⟩
  · refine .inr ⟨?_, by simp [State.received, h], by simp [State.received, h]⟩
    cases ha : s.nextRxAnswer with
    | fail => exact .inl rfl
    | serve =>
      right
      have : ¬ n ≤ s.rxFifo.length := fun hn => h ⟨ha, hn⟩
      omega

/-- SLOT_APPEND where the overflow test let the frame through: it never faults. -/
theorem Slot.append_eq_ok (f : Fields) (payload : List Byte) (sl : Slot)
    (h : wouldOverflow sl.accLen f.len = false) :
    sl.append f payload = .ok { sl with
      buf := writeBytes sl.buf sl.accLen.toNat (payload.take f.len.toNat), accLen := sl.accLen + f.len.setWidth 9 } := by
  have h' : sl.accLen.toNat + f.len.toNat ≤ maxPacketPayload := by simpa [wouldOverflow] using h
  have hl : (payload.take f.len.toNat).length ≤ f.len.toNat := by simp [List.length_take]
  have : bufWrite sl.buf sl.accLen.toNat (payload.take f.len.toNat) =
      .ok (writeBytes sl.buf sl.accLen.toNat (payload.take f.len.toNat)) :=
    (bufWrite_eq_ok ..).2 ⟨by omega, rfl⟩
  simp [Slot.append, this]

/-- The new length does not wrap where the overflow test let the frame through. -/
theorem append_accLen_toNat (accLen : Len) (len : BitVec 4) (h : wouldOverflow accLen len = false) :
    (accLen + len.setWidth 9).toNat = accLen.toNat + len.toNat := by
  have h' : accLen.toNat + len.toNat ≤ maxPacketPayload := by simpa [wouldOverflow] using h
  simp only [maxPacketPayload] at h'
  have := len.isLt
  simp only [BitVec.toNat_add, BitVec.toNat_setWidth]
  omega

/-- The overflow branch, the ignored branch and the append branch of ON_DATA are all it can do. -/
theorem onData_cases (f : Fields) (payload : List Byte) (i : Nat) (s : State) :
    ((s.slot i).assembles f.fn = false ∧ onData f payload i s = .next (s.finishReceive .inProgress none)) ∨
    ((s.slot i).assembles f.fn = true ∧ wouldOverflow (s.slot i).accLen f.len = true ∧
      onData f payload i s = abortWith .invalidFormat i s) ∨
    ((s.slot i).assembles f.fn = true ∧ wouldOverflow (s.slot i).accLen f.len = false ∧
      onData f payload i s = .next ((s.setSlot i { s.slot i with
        buf := writeBytes (s.slot i).buf (s.slot i).accLen.toNat (payload.take f.len.toNat)
        accLen := (s.slot i).accLen + f.len.setWidth 9 }).finishReceive .inProgress none)) := by
  unfold onData
  cases ha : (s.slot i).assembles f.fn
  · simp
  · cases ho : wouldOverflow (s.slot i).accLen f.len
    · simp [Slot.append_eq_ok f payload (s.slot i) ho]
    · simp

/-- All that ON_END can do, in the order of its tests. -/
theorem onEnd_cases (f : Fields) (payload : List Byte) (i : Nat) (s : State) :
    ((s.slot i).inProgress = false ∧ onEnd f payload i s = .next (s.finishReceive .invalidFormat none)) ∨
    ((s.slot i).inProgress = true ∧
      (shortEnd f.len = true ∨ countMismatch (endCount payload) (s.slot i).accLen = true) ∧
      onEnd f payload i s = abortWith .invalidFormat i s) ∨
    ((s.slot i).inProgress = true ∧ ∃ r, bufRead (s.slot i).buf 0 (s.slot i).accLen.toNat = .error r ∧
      onEnd f payload i s = .fault r) ∨
    ((s.slot i).inProgress = true ∧ ∃ bytes, bufRead (s.slot i).buf 0 (s.slot i).accLen.toNat = .ok bytes ∧
      ((checksumMismatch s.cfg.checksum (endChecksum payload) bytes = true ∧
          onEnd f payload i s = abortWith .invalidCrc i s) ∨
        (checksumMismatch s.cfg.checksum (endChecksum payload) bytes = false ∧
          onEnd f payload i s = .next ((s.setSlot i ((s.slot i).complete (endParam payload))).finishReceive .ok
            (some ((s.slot i).packet (endParam payload) bytes)))))) := by
  unfold onEnd
  cases hp : (s.slot i).inProgress
  · simp
  · cases hs : shortEnd f.len
    · cases hc : countMismatch (endCount payload) (s.slot i).accLen
      · unfold endValidate
        cases hr : bufRead (s.slot i).buf 0 (s.slot i).accLen.toNat with
        | error r => simp
        | ok bytes => cases hk : checksumMismatch s.cfg.checksum (endChecksum payload) bytes <;> simp [hk]
      · simp
    · simp

/-- At step C the reassembler's step is the same whether it is read as RECEIVE_ONE_FRAME or as the frame in the
frame register. -/
theorem exec_frameInstr (s : State) : exec (frameInstr s.cfg s.fr) s = dispatchFrame s := by
  unfold frameInstr dispatchFrame
  split
  · rfl
  · cases role s.cfg s.fr.param <;> rfl

end Sys2Proof.Machine
end

