-- ==== Sys2Proof/Laws/Frames.lean ====
section
/-! SUPPORT. What each frame row answers with the lock free, case by case, as one update of the state. -/

namespace Sys2Proof.Machine

/-- The state after step C: the slot table it left, one result delivered, the invocation over. -/
abbrev State.afterFrame (s : State) (slots : List Slot) (kind : ResultKind) (packet : Option Packet) : State :=
  { s with slots := slots, results := s.results ++ [⟨.receive, kind, packet⟩], rPhase := .idle, recvOp := none }

/-- While another holder has the lock no frame row changes anything. -/
theorem underLock_held (body : State → Outcome) (s : State) (h : s.lockHeld = true) : underLock body s = .next s := by
  simp [underLock, h]

/-- With the lock free and no slot to resolve to, every role answers `NoFreeSlot`. -/
theorem underLock_none (fn : Addr) (branch : Nat → State → Outcome) (s : State) (h : s.lockHeld = false)
    (hr : resolve s.slots fn = none) :
    underLock (resolveThen fn branch) s = .next (s.afterFrame s.slots .noFreeSlot none) := by
  cases s
  subst h
  simp only at hr
  simp [underLock, resolveThen, State.acquire, hr, State.finishReceive, State.deliver, State.release]

/-- With the lock free and a slot resolved, the role's branch runs on it. -/
theorem underLock_some (fn : Addr) (branch : Nat → State → Outcome) (s : State) (i : Nat) (h : s.lockHeld = false)
    (hr : resolve s.slots fn = some i) :
    underLock (resolveThen fn branch) s = andThen (branch i s.acquire) fun t => .next t.release := by
  simp [underLock, h, resolveThen, State.acquire, hr]

/-- Ending step C on a locked state and letting the lock go is one update of the state. -/
theorem release_finishReceive_setSlot (s : State) (i : Nat) (sl : Slot) (kind : ResultKind) (packet : Option Packet)
    (h : s.lockHeld = false) :
    ((s.acquire.setSlot i sl).finishReceive kind packet).release = s.afterFrame (s.slots.set i sl) kind packet := by
  cases s
  subst h
  rfl

theorem release_finishReceive (s : State) (kind : ResultKind) (packet : Option Packet) (h : s.lockHeld = false) :
    (s.acquire.finishReceive kind packet).release = s.afterFrame s.slots kind packet := by
  cases s
  subst h
  rfl

theorem acquire_slot (s : State) (i : Nat) : s.acquire.slot i = s.slot i := rfl

/-- START on a resolved slot. -/
theorem exec_startFrame_some (f : Fields) (payload : List Byte) (s : State) (i : Nat) (h : s.lockHeld = false)
    (hr : resolve s.slots f.fn = some i) :
    exec (.startFrame f payload) s =
      .next (s.afterFrame (s.slots.set i ((s.slot i).start f)) .inProgress none) := by
  simp only [exec, execStartFrame, underLock_some _ _ s i h hr, onStart, andThen_next, acquire_slot,
    release_finishReceive_setSlot s _ _ _ _ h]

/-- DATA on a resolved slot: ignored, aborted on overflow, or appended. -/
theorem exec_dataFrame_some (seq : Byte) (f : Fields) (payload : List Byte) (s : State) (i : Nat)
    (h : s.lockHeld = false) (hr : resolve s.slots f.fn = some i) :
    exec (.dataFrame seq f payload) s = .next (
      if (s.slot i).assembles f.fn = false then s.afterFrame s.slots .inProgress none
      else if wouldOverflow (s.slot i).accLen f.len then
        s.afterFrame (s.slots.set i (s.slot i).abort) .invalidFormat none
      else s.afterFrame (s.slots.set i { s.slot i with
        buf := writeBytes (s.slot i).buf (s.slot i).accLen.toNat (payload.take f.len.toNat)
        accLen := (s.slot i).accLen + f.len.setWidth 9 }) .inProgress none) := by
  simp only [exec, execDataFrame, underLock_some _ _ s i h hr]
  rcases onData_cases f payload i s.acquire with ⟨h1, h2⟩ | ⟨h1, h2, h3⟩ | ⟨h1, h2, h3⟩
  · rw [acquire_slot] at h1
    simp only [h2, andThen_next, h1, if_true, release_finishReceive s _ _ h]
  · rw [acquire_slot] at h1 h2
    simp only [h3, abortWith, andThen_next, h1, h2, if_true, acquire_slot, release_finishReceive_setSlot s _ _ _ _ h]
    simp
  · rw [acquire_slot] at h1 h2
    rw [h3]
    simp only [andThen_next, h1, h2, acquire_slot, release_finishReceive_setSlot s _ _ _ _ h]
    simp

/-- END on a resolved slot: the four tests in their order, then completion. -/
theorem exec_endFrame_some (f : Fields) (payload : List Byte) (s : State) (i : Nat) (h : s.lockHeld = false)
    (hr : resolve s.slots f.fn = some i) :
    exec (.endFrame f payload) s =
      if (s.slot i).inProgress = false then .next (s.afterFrame s.slots .invalidFormat none)
      else if shortEnd f.len ∨ countMismatch (endCount payload) (s.slot i).accLen then
        .next (s.afterFrame (s.slots.set i (s.slot i).abort) .invalidFormat none)
      else match bufRead (s.slot i).buf 0 (s.slot i).accLen.toNat with
        | .error r => .fault r
        | .ok bytes =>
            if checksumMismatch s.cfg.checksum (endChecksum payload) bytes then
              .next (s.afterFrame (s.slots.set i (s.slot i).abort) .invalidCrc none)
            else .next (s.afterFrame (s.slots.set i ((s.slot i).complete (endParam payload))) .ok
              (some ((s.slot i).packet (endParam payload) bytes))) := by
  simp only [exec, execEndFrame, underLock_some _ _ s i h hr]
  unfold onEnd endValidate
  rw [acquire_slot]
  cases hp : (s.slot i).inProgress
  · simp [release_finishReceive s _ _ h]
  · cases hs : shortEnd f.len
    · cases hc : countMismatch (endCount payload) (s.slot i).accLen
      · cases hb : bufRead (s.slot i).buf 0 (s.slot i).accLen.toNat with
        | error r => simp
        | ok bytes =>
          cases hk : checksumMismatch s.cfg.checksum (endChecksum payload) bytes <;>
            simp [hk, abortWith, acquire_slot, release_finishReceive_setSlot s _ _ _ _ h]
      · simp [abortWith, acquire_slot, release_finishReceive_setSlot s _ _ _ _ h]
    · simp [abortWith, acquire_slot, release_finishReceive_setSlot s _ _ _ _ h]

end Sys2Proof.Machine
end

