-- ==== Sys2Proof/Laws/PerInstr.lean ====
section
/-! SUPPORT. The per-instruction family `EncodedForm`: what the encoding of each operation is made of. -/

namespace Sys2Proof.Laws.EncodedForm

/-- A well-formed frame is 5 header bytes and the declared payload (spec/30_encoding.md R70, R76); a malformed
header is 5 bytes; a host command has the code of spec/30_encoding.md R90. -/
def Statement (i : Instr) : Prop :=
  ∀ p : Params, i.wf p = true →
    match i, encode p i with
    | .startFrame f _, .frame bytes => bytes.length = headerBytes + f.len.toNat
    | .endFrame f _, .frame bytes => bytes.length = headerBytes + f.len.toNat
    | .dataFrame _ f _, .frame bytes => bytes.length = headerBytes + f.len.toNat
    | .reservedLen _ _, .frame bytes => bytes.length = headerBytes
    | .init _ _, .command c => c.cmd = 0
    | .sendPacket _, .command c => c.cmd = 1
    | .receiveOneFrame _, .command c => c.cmd = 2
    | .reservedCmd, .command c => c.cmd = 3
    | _, _ => False

theorem encodeHeader_length (param : Byte) (f : Fields) : (encodeHeader param f).length = headerBytes := rfl

theorem payload_length {f : Fields} {payload : List Byte} (h : payloadFits f payload = true) :
    payload.length = f.len.toNat := by
  simp only [payloadFits, Bool.and_eq_true, decide_eq_true_eq] at h
  exact h.2

theorem startFrame (f : Fields) (payload : List Byte) : Statement (.startFrame f payload) := fun p h => by
  simp [encode, encodeHeader_length, payload_length h]

theorem endFrame (f : Fields) (payload : List Byte) : Statement (.endFrame f payload) := fun p h => by
  simp [encode, encodeHeader_length, payload_length h]

theorem dataFrame (seq : Byte) (f : Fields) (payload : List Byte) : Statement (.dataFrame seq f payload) :=
  fun p h => by
    simp only [Instr.wf, Bool.and_eq_true] at h
    simp [encode, encodeHeader_length, payload_length h.1.1]

theorem reservedLen (param : Byte) (f : Fields) : Statement (.reservedLen param f) := fun _ _ => rfl

theorem init (tx rx : Bool) : Statement (.init tx rx) := fun _ _ => rfl

theorem sendPacket (op : SendOp) : Statement (.sendPacket op) := fun _ _ => rfl

theorem receiveOneFrame (a : Addr) : Statement (.receiveOneFrame a) := fun _ _ => rfl

theorem reservedCmd : Statement .reservedCmd := fun _ _ => rfl

end Sys2Proof.Laws.EncodedForm
end

