-- ==== Sys2Proof/Laws/Step.lean ====
section
/-! SUPPORT. What one step can do, said once: each operation's step, then the machine's. -/

namespace Sys2Proof.Machine

/-- The four ways a frame row of stream `fn` can change the slot it was resolved to. -/
inductive SlotMove (fn : Addr) (sl : Slot) : Slot → Prop where
  | start (f : Fields) (h : f.fn = fn) : SlotMove fn sl (sl.start f)
  | abort (h : sl.inProgress = true) : SlotMove fn sl sl.abort
  | complete (param : Byte) (h : sl.inProgress = true) : SlotMove fn sl (sl.complete param)
  | append (f : Fields) (payload : List Byte) (h : sl.assembles fn = true)
      (ho : wouldOverflow sl.accLen f.len = false) :
      SlotMove fn sl { sl with
        buf := writeBytes sl.buf sl.accLen.toNat (payload.take f.len.toNat), accLen := sl.accLen + f.len.setWidth 9 }

/-- The slot table after step C: as it was, or with the resolved slot moved. -/
def TableMove (fn : Addr) (slots slots' : List Slot) : Prop :=
  slots' = slots ∨ ∃ i sl, resolve slots fn = some i ∧ SlotMove fn (slots.getD i Slot.reset) sl ∧ slots' = slots.set i sl

/-- What a frame row of stream `fn` can do when it goes on. -/
theorem exec_frame_next (i : Instr) (fn : Addr) (s t : State)
    (hi : (∃ f p, i = .startFrame f p ∧ f.fn = fn) ∨ (∃ f p, i = .endFrame f p ∧ f.fn = fn) ∨
      (∃ n f p, i = .dataFrame n f p ∧ f.fn = fn))
    (h : exec i s = .next t) :
    (s.lockHeld = true ∧ t = s) ∨
    (s.lockHeld = false ∧ ∃ slots kind packet, t = s.afterFrame slots kind packet ∧ TableMove fn s.slots slots) := by
  cases hl : s.lockHeld
  · refine .inr ⟨rfl, ?_⟩
    cases hr : resolve s.slots fn with
    | none =>
      have : exec i s = .next (s.afterFrame s.slots .noFreeSlot none) := by
        rcases hi with ⟨f, p, rfl, rfl⟩ | ⟨f, p, rfl, rfl⟩ | ⟨n, f, p, rfl, rfl⟩ <;>
          simp only [exec, execStartFrame, execEndFrame, execDataFrame, underLock_none _ _ s hl hr]
      rw [this] at h
      injection h with h
      exact ⟨_, _, _, h.symm, .inl rfl⟩
    | some k =>
      rcases hi with ⟨f, p, rfl, rfl⟩ | ⟨f, p, rfl, rfl⟩ | ⟨n, f, p, rfl, rfl⟩
      · rw [exec_startFrame_some f p s k hl hr] at h
        injection h with h
        exact ⟨_, _, _, h.symm, .inr ⟨k, _, hr, .start f rfl, rfl⟩⟩
      · rw [exec_endFrame_some f p s k hl hr] at h
        split at h
        · injection h with h
          exact ⟨_, _, _, h.symm, .inl rfl⟩
        · rename_i hp
          have hp : (s.slot k).inProgress = true := by simpa using hp
          split at h
          · injection h with h
            exact ⟨_, _, _, h.symm, .inr ⟨k, _, hr, .abort hp, rfl⟩⟩
          · split at h
            · cases h
            · split at h <;> injection h with h
              · exact ⟨_, _, _, h.symm, .inr ⟨k, _, hr, .abort hp, rfl⟩⟩
              · exact ⟨_, _, _, h.symm, .inr ⟨k, _, hr, .complete _ hp, rfl⟩⟩
      · rw [exec_dataFrame_some n f p s k hl hr] at h
        injection h with h
        split at h
        · exact ⟨_, _, _, h.symm, .inl rfl⟩
        · rename_i ha
          have ha : (s.slot k).assembles f.fn = true := by simpa using ha
          split at h
          · refine ⟨_, _, _, h.symm, .inr ⟨k, _, hr, .abort ?_, rfl⟩⟩
            exact (Bool.and_eq_true _ _ ▸ ha : _ ∧ _).1
          · rename_i ho
            exact ⟨_, _, _, h.symm, .inr ⟨k, _, hr, .append f p ha (Bool.eq_false_iff.2 ho), rfl⟩⟩
  · left
    refine ⟨rfl, ?_⟩
    have : exec i s = .next s := by
      rcases hi with ⟨f, p, rfl, rfl⟩ | ⟨f, p, rfl, rfl⟩ | ⟨n, f, p, rfl, rfl⟩ <;>
        simp only [exec, execStartFrame, execEndFrame, execDataFrame, underLock_held _ s hl]
    rw [this] at h
    injection h with h
    exact h.symm

/-- The fields of the receive side and of the world beside the transmit calls, which no step of SEND_PACKET
writes. -/
structure SameReceiveSide (s t : State) : Prop where
  cfg : t.cfg = s.cfg
  slots : t.slots = s.slots
  txBound : t.txBound = s.txBound
  rxBound : t.rxBound = s.rxBound
  rPhase : t.rPhase = s.rPhase
  recvOp : t.recvOp = s.recvOp
  fr : t.fr = s.fr
  lockHeld : t.lockHeld = s.lockHeld
  rxFifo : t.rxFifo = s.rxFifo
  rxAnswers : t.rxAnswers = s.rxAnswers
  rxDraws : t.rxDraws = s.rxDraws
  hostQueue : t.hostQueue = s.hostQueue
  script : t.script = s.script
  eventDraws : t.eventDraws = s.eventDraws

/-- What a step of SEND_PACKET can do apart from the fragmenter's own registers: at most one `transmit` call of 5 to
13 bytes and at most one result. -/
structure SendStep (s t : State) : Prop where
  same : SameReceiveSide s t
  results : t.results = s.results ∨ ∃ kind, t.results = s.results ++ [⟨.send, kind, none⟩]
  txCalls : t.txCalls = s.txCalls ∨ ∃ bytes, t.txCalls = s.txCalls ++ [⟨bytes, s.nextTxAnswer⟩] ∧
    5 ≤ bytes.length ∧ bytes.length ≤ 13

/-- A step of SEND_PACKET always goes on, and does no more than that. -/
theorem exec_sendPacket_frame (op : SendOp) (s : State) : ∃ t, exec (.sendPacket op) s = .next t ∧ SendStep s t := by
  have hs : ∀ param src dst fn pl, (encodeFrame s.cfg param src dst fn pl).length = 5 + pl.length := by
    intro param src dst fn pl
    simp [encodeFrame, encodeHeader]
    omega
  have hstart : ∃ t, emitStart op s = .next t ∧ SendStep s t := by
    have hb : 5 ≤ (startBytes s.cfg op).length ∧ (startBytes s.cfg op).length ≤ 13 := by simp [startBytes, hs]
    rcases emitStart_cases op s with ⟨-, e⟩ | ⟨n, -, e⟩
    · exact ⟨_, e, by constructor <;> rfl, .inl rfl, .inr ⟨_, rfl, hb⟩⟩
    · exact ⟨_, e, by constructor <;> rfl, .inr ⟨_, rfl⟩, .inr ⟨_, rfl, hb⟩⟩
  simp only [exec, execSendPacket]
  cases hp : s.fPhase
  · cases ho : s.sendOp
    · simp only [acceptSend]
      split
      · exact ⟨_, rfl, by constructor <;> rfl, .inr ⟨_, rfl⟩, .inl rfl⟩
      · split
        · exact ⟨_, rfl, by constructor <;> rfl, .inr ⟨_, rfl⟩, .inl rfl⟩
        · exact ⟨_, rfl, by constructor <;> rfl, .inl rfl, .inl rfl⟩
    · exact hstart
  · exact hstart
  · simp only [emitData]
    split
    · have hb : 5 ≤ (dataBytes s.cfg op s.fSeq s.fOff.toNat).length ∧
          (dataBytes s.cfg op s.fSeq s.fOff.toNat).length ≤ 13 := by
        simp [dataBytes, hs, chunkAt, chunkLen, maxFramePayload]
        omega
      rcases emit_cases (dataBytes s.cfg op s.fSeq s.fOff.toNat) (State.afterData op) s with ⟨-, e⟩ | ⟨n, -, e⟩
      · exact ⟨_, e, by constructor <;> rfl, .inl rfl, .inr ⟨_, rfl, hb⟩⟩
      · exact ⟨_, e, by constructor <;> rfl, .inr ⟨_, rfl⟩, .inr ⟨_, rfl, hb⟩⟩
    · exact ⟨_, rfl, by constructor <;> rfl, .inl rfl, .inl rfl⟩
  · simp only [emitEnd]
    have hb : 5 ≤ (endBytes s.cfg op s.fSeq s.fChk s.fParam).length ∧
        (endBytes s.cfg op s.fSeq s.fChk s.fParam).length ≤ 13 := by simp [endBytes, hs]
    rcases emit_cases (endBytes s.cfg op s.fSeq s.fChk s.fParam) (fun t => t.finishSend .ok) s with ⟨-, e⟩ | ⟨n, -, e⟩
    · exact ⟨_, e, by constructor <;> rfl, .inr ⟨_, rfl⟩, .inr ⟨_, rfl, hb⟩⟩
    · exact ⟨_, e, by constructor <;> rfl, .inr ⟨_, rfl⟩, .inr ⟨_, rfl, hb⟩⟩

/-- The fields of the send side and of the world beside the receive FIFO, which no receive-side operation writes. -/
structure SameSendSide (s t : State) : Prop where
  cfg : t.cfg = s.cfg
  txBound : t.txBound = s.txBound
  rxBound : t.rxBound = s.rxBound
  fPhase : t.fPhase = s.fPhase
  fSeq : t.fSeq = s.fSeq
  fOff : t.fOff = s.fOff
  fChk : t.fChk = s.fChk
  fParam : t.fParam = s.fParam
  sendOp : t.sendOp = s.sendOp
  txCalls : t.txCalls = s.txCalls
  txAnswers : t.txAnswers = s.txAnswers
  txDraws : t.txDraws = s.txDraws
  hostQueue : t.hostQueue = s.hostQueue
  script : t.script = s.script
  eventDraws : t.eventDraws = s.eventDraws
  lockHeld : t.lockHeld = s.lockHeld

theorem SameSendSide.of_afterFrame (s : State) (slots : List Slot) (kind : ResultKind) (packet : Option Packet) :
    SameSendSide s (s.afterFrame slots kind packet) := by
  constructor <;> rfl

/-- One step of the fetch or the filter, and the dispatch of RECEIVE_ONE_FRAME: all but step C. -/
theorem exec_receiveOneFrame_next (a : Addr) (s t : State) (hp : s.rPhase ≠ .dispatch)
    (h : exec (.receiveOneFrame a) s = .next t) :
    SameSendSide s t ∧ t.slots = s.slots ∧
      ((∃ kind, t.rPhase = .idle ∧ t.recvOp = none ∧ t.fr = s.fr ∧ t.results = s.results ++ [receiveResult kind]) ∨
      (t.results = s.results ∧ (
        (s.rPhase = .idle ∧ s.rxBound = true ∧ t.rPhase = .header ∧ t.recvOp = some a ∧ t.fr = s.fr) ∨
        (s.rPhase = .header ∧ t.rPhase = .payload ∧ t.recvOp = s.recvOp) ∨
        (s.rPhase = .payload ∧ t.rPhase = .filter ∧ t.recvOp = s.recvOp ∧ t.fr.fields = s.fr.fields ∧
          t.fr.param = s.fr.param ∧ t.fr.fields.len.toNat ≤ maxFramePayload ∧
          t.fr.payload.length = t.fr.fields.len.toNat) ∨
        (s.rPhase = .filter ∧ t.rPhase = .dispatch ∧ t.recvOp = s.recvOp ∧ t.fr = s.fr ∧ s.fr.fields.dst = a)))) := by
  simp only [exec, execReceiveOneFrame] at h
  cases hph : s.rPhase <;> simp only [hph] at h
  · unfold acceptReceive at h
    split at h <;> injection h with h <;> subst h
    · exact ⟨by constructor <;> rfl, rfl, .inl ⟨_, rfl, rfl, rfl, rfl⟩⟩
    · rename_i hb
      exact ⟨by constructor <;> rfl, rfl, .inr ⟨rfl, .inl ⟨rfl, by simpa using hb, rfl, rfl, rfl⟩⟩⟩
  · unfold fetchHeader at h
    split at h <;> injection h with h <;> subst h
    · exact ⟨by constructor <;> rfl, rfl, .inl ⟨_, rfl, rfl, rfl, rfl⟩⟩
    · exact ⟨by constructor <;> rfl, rfl, .inr ⟨rfl, .inr (.inl ⟨rfl, rfl, rfl⟩)⟩⟩
  · unfold fetchPayload at h
    dsimp only at h
    split at h
    · unfold execReservedLen at h
      injection h with h; subst h
      exact ⟨by constructor <;> rfl, rfl, .inl ⟨_, rfl, rfl, rfl, rfl⟩⟩
    · rename_i hm
      split at h
      · rename_i h0
        injection h with h; subst h
        exact ⟨by constructor <;> rfl, rfl, .inr ⟨rfl, .inr (.inr (.inl ⟨rfl, rfl, rfl, rfl, rfl, by simp; omega, by simp [h0]⟩))⟩⟩
      · split at h <;> injection h with h <;> subst h
        · exact ⟨by constructor <;> rfl, rfl, .inl ⟨_, rfl, rfl, rfl, rfl⟩⟩
        · rename_i p hp
          refine ⟨by constructor <;> rfl, rfl, .inr ⟨rfl, .inr (.inr (.inl ⟨rfl, rfl, rfl, rfl, rfl, by simp; omega, ?_⟩))⟩⟩
          rcases received_cases s s.fr.fields.len.toNat with ⟨-, hl, e, -⟩ | ⟨-, e, -⟩
          · rw [e] at hp
            injection hp with hp
            subst hp
            simp [hl]
          · rw [e] at hp; cases hp
  · unfold filterFrame at h
    split at h <;> injection h with h <;> subst h
    · exact ⟨by constructor <;> rfl, rfl, .inl ⟨_, rfl, rfl, rfl, rfl⟩⟩
    · rename_i hd
      exact ⟨by constructor <;> rfl, rfl, .inr ⟨rfl, .inr (.inr (.inr ⟨rfl, rfl, rfl, rfl, by simpa using hd⟩))⟩⟩
  · exact absurd hph hp

/-- Step C, as the frame in the frame register: a reserved length, or a move of the table under the lock. -/
theorem exec_frameInstr_next (s t : State) (h : exec (frameInstr s.cfg s.fr) s = .next t) :
    (s.lockHeld = true ∧ t = s) ∨
    (∃ slots kind packet, t = s.afterFrame slots kind packet ∧
      (slots = s.slots ∨ (s.lockHeld = false ∧ TableMove s.fr.fields.fn s.slots slots))) := by
  unfold frameInstr at h
  split at h
  · simp only [exec, execReservedLen] at h
    injection h with h
    exact .inr ⟨_, _, _, h.symm, .inl rfl⟩
  · have key : ∀ i, exec i s = .next t →
        ((∃ f p, i = .startFrame f p ∧ f.fn = s.fr.fields.fn) ∨ (∃ f p, i = .endFrame f p ∧ f.fn = s.fr.fields.fn) ∨
          (∃ n f p, i = .dataFrame n f p ∧ f.fn = s.fr.fields.fn)) →
        (s.lockHeld = true ∧ t = s) ∨
        (∃ slots kind packet, t = s.afterFrame slots kind packet ∧
          (slots = s.slots ∨ (s.lockHeld = false ∧ TableMove s.fr.fields.fn s.slots slots))) := by
      intro i h hi
      rcases exec_frame_next i _ s t hi h with h | ⟨hl, sl, k, p, e, m⟩
      · exact .inl h
      · exact .inr ⟨sl, k, p, e, .inr ⟨hl, m⟩⟩
    split at h
    · exact key _ h (.inl ⟨_, _, rfl, rfl⟩)
    · exact key _ h (.inr (.inl ⟨_, _, rfl, rfl⟩))
    · exact key _ h (.inr (.inr ⟨_, _, _, rfl, rfl⟩))

/-- A step of the machine that goes on: a legal configuration, and one event applied to the state with the event
used up. -/
theorem step_next {s t : State} : step s = .next t ↔ s.legal = true ∧ applyEvent s.nextEvent s.afterEvent = .next t := by
  unfold step agentStep
  split <;> simp_all

/-- The reassembler's step is a step of the RECEIVE_ONE_FRAME in progress. -/
theorem exec_receiveInstr (a : Addr) (s : State) : exec (s.receiveInstr a) s = exec (.receiveOneFrame a) s := by
  have he : exec (.receiveOneFrame a) s = execReceiveOneFrame a s := rfl
  unfold State.receiveInstr State.frameReady
  cases hp : s.rPhase
  · simp
  · simp
  · by_cases hm : maxFramePayload < s.fr.fields.len.toNat
    · simp [he, execReceiveOneFrame, hp, fetchPayload, frameInstr, hm]
      rfl
    · simp [hm]
  · simp
  · simp [exec_frameInstr, he, execReceiveOneFrame, hp]

/-- All that one step of RECEIVE_ONE_FRAME can do to what other operations see. -/
theorem exec_receiveOneFrame_cases (a : Addr) (s t : State) (h : exec (.receiveOneFrame a) s = .next t) :
    SameSendSide s t ∧
      (t.slots = s.slots ∨
        (s.rPhase = .dispatch ∧ s.lockHeld = false ∧ TableMove s.fr.fields.fn s.slots t.slots)) ∧
      (t.results = s.results ∨ ∃ r, t.results = s.results ++ [r] ∧ r.op = .receive) := by
  by_cases hp : s.rPhase = .dispatch
  · have : exec (.receiveOneFrame a) s = exec (frameInstr s.cfg s.fr) s := by
      rw [exec_frameInstr]; simp [exec, execReceiveOneFrame, hp]
    rw [this] at h
    rcases exec_frameInstr_next s t h with ⟨-, rfl⟩ | ⟨slots, kind, packet, rfl, m⟩
    · exact ⟨by constructor <;> rfl, .inl rfl, .inl rfl⟩
    · refine ⟨.of_afterFrame .., ?_, .inr ⟨_, rfl, rfl⟩⟩
      rcases m with rfl | ⟨hl, m⟩
      · exact .inl rfl
      · exact .inr ⟨hp, hl, m⟩
  · obtain ⟨h1, h2, h3⟩ := exec_receiveOneFrame_next a s t hp h
    refine ⟨h1, .inl h2, ?_⟩
    rcases h3 with ⟨kind, -, -, -, h⟩ | ⟨h, -⟩
    · exact .inr ⟨_, h, rfl⟩
    · exact .inl h

/-- The operations a host command can decode to. -/
theorem decodeCommand_cases {c : HostCmd} {i : Instr} (h : decodeCommand c = .ok i) :
    (∃ tx rx, i = .init tx rx) ∨ (∃ op, i = .sendPacket op ∧ lengthFits op.length op.payload = true) ∨
    (∃ a, i = .receiveOneFrame a) ∨ i = .reservedCmd := by
  unfold decodeCommand at h
  split at h
  · injection h with h
    exact .inl ⟨_, _, h.symm⟩
  · split at h
    · rename_i hl
      injection h with h
      exact .inr (.inl ⟨_, h.symm, hl⟩)
    · cases h
  · injection h with h
    exact .inr (.inr (.inl ⟨_, h.symm⟩))
  · injection h with h
    exact .inr (.inr (.inr h.symm))

/-- All that a step of the machine can do when it goes on: nothing, one operation's step, or one input. -/
theorem step_cases {s t : State} (h : step s = .next t) : s.legal = true ∧
    (t = s.afterEvent ∨
    (s.nextEvent = .host ∧ ∃ c cs i, s.hostQueue = c :: cs ∧ decodeCommand c = .ok i ∧ s.unitFree i = true ∧
      exec i { s.afterEvent with hostQueue := cs } = .next t) ∨
    (s.nextEvent = .fragmenter ∧ ∃ op, s.sendOp = some op ∧ exec (.sendPacket op) s.afterEvent = .next t) ∨
    (s.nextEvent = .reassembler ∧ ∃ a, s.recvOp = some a ∧ exec (.receiveOneFrame a) s.afterEvent = .next t) ∨
    (∃ c, t = { s.afterEvent with hostQueue := s.hostQueue ++ [c] }) ∨
    (∃ bytes, t = { s.afterEvent with rxFifo := s.rxFifo ++ bytes }) ∨
    (∃ held, t = { s.afterEvent with lockHeld := held }) ∨
    (s.nextEvent = .reset ∧ t = s.afterEvent.resetBlock)) := by
  obtain ⟨hl, h⟩ := step_next.1 h
  refine ⟨hl, ?_⟩
  cases he : s.nextEvent <;> rw [he] at h <;> simp only [applyEvent] at h
  · unfold hostStep at h
    split at h
    · injection h with h
      exact .inl h.symm
    · split at h
      · cases h
      · rename_i c cs hq _ i hd
        split at h
        · rename_i hu
          exact .inr (.inl ⟨rfl, c, cs, i, hq, hd, by cases i <;> exact hu, h⟩)
        · injection h with h
          exact .inl h.symm
  · unfold fragmenterStep at h
    split at h
    · injection h with h
      exact .inl h.symm
    · rename_i op ho
      exact .inr (.inr (.inl ⟨rfl, op, ho, h⟩))
  · unfold reassemblerStep at h
    split at h
    · injection h with h
      exact .inl h.symm
    · rename_i a ho
      rw [exec_receiveInstr] at h
      exact .inr (.inr (.inr (.inl ⟨rfl, a, ho, h⟩)))
  all_goals (injection h with h; subst h)
  · exact .inr (.inr (.inr (.inr (.inl ⟨_, rfl⟩))))
  · exact .inr (.inr (.inr (.inr (.inr (.inl ⟨_, rfl⟩)))))
  · exact .inr (.inr (.inr (.inr (.inr (.inr (.inl ⟨_, rfl⟩))))))
  · exact .inr (.inr (.inr (.inr (.inr (.inr (.inl ⟨_, rfl⟩))))))
  · exact .inr (.inr (.inr (.inr (.inr (.inr (.inr ⟨rfl, rfl⟩))))))

end Sys2Proof.Machine
end

