-- ==== Sys2Proof/Tests/Slice0.lean ====
section
/-! SUPPORT. The implementer's own tests: expected values from spec/95_test_vectors.md or worked from the rules by
hand; then one theorem per statement with hypotheses that shows them met. -/

namespace Sys2Proof.Machine.Test

/-- The outcome is a next state with a property. -/
def nextIs (o : Outcome) (p : State → Bool) : Bool :=
  match o with
  | .next t => p t
  | .fault _ => false
  | .refused _ => false

/-- The frame fields of the source's scenario S7 (fn=0x43 src=0x01 dst=0x02), with a payload length. -/
def fields (len : BitVec 4) : Fields := ⟨0x01, 0x02, 0x43, 0, len, 0, false, true⟩

/-- Reset and INIT, with the spec's test checksum T-SUM. -/
def bound : State :=
  { State.reset with cfg := { Params.default with checksum := .tSum }, txBound := true, rxBound := true }

/-- A slot assembling stream 0x43 with these bytes. -/
def slotOf (n : Len) (buf : Memory) : Slot := ⟨.assembling, n, 0x43, 0x01, 0x02, 0, buf⟩

/-- `bound`, with slot 0 assembling stream 0x43. -/
def busy (n : Len) (buf : Memory) : State := { bound with slots := [slotOf n buf, Slot.reset] }

/-- A packet of the family F of spec/95_test_vectors.md section 2.2, `payload[i] = 7 * i + 3`. -/
def packetF (n : Nat) : SendOp :=
  ⟨0x11, 0x7F, 0x00, 0xFE, BitVec.ofNat 9 n, (List.range n).map fun i => BitVec.ofNat 8 (7 * i + 3)⟩

/-! Well-formedness: each check refuses an ill-formed term. -/

theorem test_wf_refuses_length_9 : (Instr.startFrame (fields 9) []).wf .default = false := by decide
theorem test_wf_refuses_start_payload_count : (Instr.startFrame (fields 2) [1]).wf .default = false := by decide
theorem test_wf_refuses_end_payload_count : (Instr.endFrame (fields 3) [1]).wf .default = false := by decide
theorem test_wf_refuses_data_payload_count : (Instr.dataFrame 0 (fields 1) []).wf .default = false := by decide
theorem test_wf_refuses_seq_start : (Instr.dataFrame 0xFE (fields 0) []).wf .default = false := by decide
theorem test_wf_refuses_seq_end : (Instr.dataFrame 0xFF (fields 0) []).wf .default = false := by decide
theorem test_wf_refuses_reserved_length_8 : (Instr.reservedLen 0 (fields 8)).wf .default = false := by decide
theorem test_wf_refuses_send_count : (Instr.sendPacket ⟨0, 0, 0, 0, 2, [1]⟩).wf .default = false := by decide
theorem test_wf_takes_data : (Instr.dataFrame 0 (fields 1) [7]).wf .default = true := by decide

/-! Decoding and encoding (spec/95_test_vectors.md section 2.1). -/

theorem test_decode_start_K2 : decodeFrame .default [0xFE, 0x01, 0xC1, 0xF0, 0x70] =
    .ok (.startFrame ⟨0x01, 0x02, 0x43, 7, 0, 3, true, false⟩ [], []) := by rfl
theorem test_decode_end_E3 : decodeFrame .default [0xFF, 0x01, 0xC1, 0x10, 0x83, 0x07, 0xC9, 0x12] =
    .ok (.endFrame (fields 3) [0x07, 0xC9, 0x12], []) := by rfl
theorem test_decode_data_K3 : decodeFrame .default [0x05, 0x01, 0xC1, 0xB0, 0x51, 0x55] =
    .ok (.dataFrame 0x05 ⟨0x01, 0x02, 0x43, 5, 1, 1, true, false⟩ [0x55], []) := by rfl
theorem test_decode_data_K6 : decodeFrame .default [0x00, 0x01, 0x02, 0x03, 0x04, 9, 9, 9, 9, 7] =
    .ok (.dataFrame 0x00 ⟨0x01, 0x04, 0x0C, 0, 4, 0, false, false⟩ [9, 9, 9, 9], [7]) := by rfl
theorem test_decode_reserved_K4 : decodeFrame .default [0x00, 0x01, 0xC1, 0x10, 0x89] =
    .ok (.reservedLen 0x00 (fields 9), []) := by rfl
theorem test_decode_short_header : decodeFrame .default [0xFE, 0x01, 0xC1, 0x10] = .error .shortHeader := by rfl
theorem test_decode_short_payload : decodeFrame .default [0x00, 0x01, 0xC1, 0x10, 0x88, 1, 2, 3, 4] =
    .error .shortPayload := by rfl
theorem test_encode_E6 : encodeFrame .default 0xA7 0x2A 0x33 0x55 [1, 2, 3] =
    [0xA7, 0xAA, 0x59, 0x15, 0x83, 0x01, 0x02, 0x03] := by decide
theorem test_encode_E4 : encodeFrame .default 0xFF 0x7F 0x7F 0x7F [] = [0xFF, 0xFF, 0xFF, 0x1F, 0x80] := by decide
theorem test_word_start : decodeTableWord 40 0x00000000FE = some (.startFrame ⟨0, 0, 0, 0, 0, 0, false, false⟩ []) := by
  decide
theorem test_word_data_reads_zeros : decodeTableWord 40 0x0200000005 =
    some (.dataFrame 5 ⟨0, 0, 0, 0, 2, 0, false, false⟩ [0, 0]) := by decide
theorem test_word_init : decodeTableWord 8 0 = some (.init false false) := by decide
theorem test_word_send : decodeTableWord 8 1 = some (.sendPacket ⟨0, 0, 0, 0, 0, []⟩) := by decide
theorem test_word_receive : decodeTableWord 8 2 = some (.receiveOneFrame 0) := by decide
theorem test_word_reserved : decodeTableWord 8 3 = some .reservedCmd := by decide
theorem test_decode_init : decodeCommand { HostCmd.blank 0 with txPresent := true } = .ok (.init true false) := by rfl
theorem test_decode_send_count : decodeCommand { HostCmd.blank 1 with length := 2, payload := [1] } =
    .error .payloadCount := by rfl

/-! The test checksum T-CRC8 (spec/95_test_vectors.md, conventions: its value over "123456789"). -/

theorem test_crc8_check_value :
    checksum8 .tCrc8 0 [0x31, 0x32, 0x33, 0x34, 0x35, 0x36, 0x37, 0x38, 0x39] = 0xF4 := by decide +kernel

/-! One step of each operation. -/

/-- Vector A1. -/
theorem test_start_A1 : nextIs (exec (.startFrame (fields 0) []) bound) (fun t =>
    decide (t.slot 0 = slotOf 0 []) && decide (t.results = [receiveResult .inProgress])) = true := by decide
/-- Vector C11: a restart drops what was accumulated and takes the new source. -/
theorem test_start_restart_C11 : nextIs (exec (.startFrame { fields 0 with src := 0x05 } []) (busy 3 [(0, 1)])) (fun t =>
    decide ((t.slot 0).accLen = 0) && decide ((t.slot 0).src = 0x05) && decide ((t.slot 1) = Slot.reset)) = true := by
  decide
/-- Vectors C17, A5: five payload bytes, the last two ignored. -/
theorem test_end_A5 : nextIs (exec (.endFrame (fields 5) [0, 0, 0x12, 0x99, 0x98]) (busy 0 [])) (fun t =>
    decide (t.results = [⟨.receive, .ok, some ⟨0x43, 0x01, 0x02, 0x12, []⟩⟩]) &&
      !(t.slot 0).inProgress) = true := by decide
/-- Vector A11b: a wrong count and a wrong checksum is `InvalidFormat`. -/
theorem test_end_A11b : nextIs (exec (.endFrame (fields 3) [3, 0xB5, 0x5A]) (busy 1 [(0, 0xB4)])) (fun t =>
    decide (t.results = [receiveResult .invalidFormat]) && !(t.slot 0).inProgress) = true := by decide
/-- Vector of R145: 48 bytes, then `30 31`. -/
theorem test_data_append : nextIs (exec (.dataFrame 6 (fields 2) [0x30, 0x31]) (busy 48 [])) (fun t =>
    decide ((t.slot 0).accLen = 50) && decide (t.readByte 0 48 = some 0x30) &&
      decide (t.readByte 0 49 = some 0x31)) = true := by decide
/-- Vector C13. -/
theorem test_data_overflow_C13 : nextIs (exec (.dataFrame 6 (fields 7) [1, 2, 3, 4, 5, 6, 7]) (busy 250 [])) (fun t =>
    decide (t.results = [receiveResult .invalidFormat]) && decide ((t.slot 0).accLen = 0)) = true := by decide
/-- Vector Q4. -/
theorem test_reserved_length_Q4 : nextIs (exec (.reservedLen 0 (fields 9)) (busy 3 [])) (fun t =>
    decide (t.results = [receiveResult .malformedHeader]) && decide (t.slots = (busy 3 []).slots)) = true := by decide
/-- Vector H1. -/
theorem test_init_H1 : nextIs (exec (.init true true) State.reset) (fun t =>
    t.txBound && t.rxBound && decide (t.results = [⟨.init, .ok, none⟩])) = true := by decide
/-- Vector H3: a rejected INIT leaves the binding. -/
theorem test_init_H3 : nextIs (exec (.init false true) (busy 8 [])) (fun t =>
    t.txBound && t.rxBound && decide (t.results = [⟨.init, .initRejected, none⟩])) = true := by decide
/-- Vector F5: the START frame with the registers, in the one step after the acceptance (R121); the second data
frame, and the checksum under T-SUM after it. -/
theorem test_send_F5 :
    nextIs (exec (.sendPacket (packetF 9))
      { bound with sendOp := some (packetF 9), fSeq := 5, fChk := 1, txAnswers := [.ok] }) (fun t =>
      decide (t.txLog = [[0xFE, 0x7F, 0x40, 0x04, 0x80]]) && decide (t.fParam = 0xFE) && decide (t.fSeq = 0) &&
        decide (t.fChk = 0) && decide (t.fPhase = .data)) = true ∧
    nextIs (exec (.sendPacket (packetF 9))
      { bound with fPhase := .data, fSeq := 1, fOff := 8, fChk := 0xDC, txAnswers := [.ok] }) (fun t =>
      decide (t.txLog = [[0x01, 0x7F, 0x40, 0x04, 0x81, 0x3B]]) && decide (t.fChk = 0x17) && decide (t.fOff = 9) &&
        decide (t.fPhase = .finish)) = true := by decide
/-- Vector F12: an error at the END frame, two bytes of it sent. -/
theorem test_send_F12 : nextIs (exec (.sendPacket (packetF 9))
    { bound with fPhase := .finish, fSeq := 2, fChk := 0x17, fParam := 0xFE, txAnswers := [.error 2] }) (fun t =>
    decide (t.txCalls = [⟨[0xFF, 0x7F, 0x40, 0x04, 0x83, 0x02, 0x17, 0xFE], .error 2⟩]) &&
      decide (t.txWire = [0xFF, 0x7F]) && decide (t.results = [⟨.send, .sendFailure, none⟩])) = true := by decide
/-- Vector Q6: the header read takes 5 bytes. -/
theorem test_receive_Q6 : nextIs (exec (.receiveOneFrame 2)
    { bound with rPhase := .header, rxAnswers := [.serve],
                 rxFifo := [0x00, 0x01, 0xC1, 0x10, 0x83, 0x01, 0x02, 0x03, 0xFF] }) (fun t =>
    decide (t.fr.fields = fields 3) && decide (t.rxFifo = [1, 2, 3, 0xFF]) && decide (t.rPhase = .payload)) = true := by
  decide
/-- Vector A9: another destination. -/
theorem test_receive_A9 : nextIs (exec (.receiveOneFrame 3)
    { busy 8 [] with rPhase := .filter, fr := ⟨0, fields 1, [0xAA]⟩ }) (fun t =>
    decide (t.results = [receiveResult .invalidAddress]) && decide (t.slots = (busy 8 []).slots)) = true := by decide
/-- Vector H7. -/
theorem test_reserved_H7 : nextIs (exec .reservedCmd (busy 8 [])) (fun t =>
    decide (t.results = [⟨.reserved, .refused, none⟩]) && decide (t.slots = (busy 8 []).slots)) = true := by decide
/-- The code of `Refused` in spec/60_exceptions.md R185. -/
theorem test_code_refused : ResultKind.refused.code = 11 := by decide

/-- A placed table word runs at the very next step. -/
theorem test_placed_start_runs : nextIs (step (State.reset.withFetchWord 40 0xFE)) (fun t =>
    decide (t.results = [receiveResult .inProgress]) && (t.slot 0).inProgress) = true := by decide
theorem test_placed_init_runs : nextIs (step (State.reset.withFetchWord 8 0)) (fun t =>
    decide (t.results = [⟨.init, .initRejected, none⟩])) = true := by decide

/-! Witnesses: for each statement with hypotheses, a concrete state and operands that meet all of them together
(several where the statement has clauses). -/

theorem nextIs_elim {o : Outcome} {p : State → Bool} (h : nextIs o p = true) : ∃ t, o = .next t ∧ p t = true := by
  cases o with
  | next t => exact ⟨t, rfl, h⟩
  | fault r => cases h
  | refused r => cases h

/-- A run in progress on both sides: slot 0 holds 3 bytes of stream 0x43; the second data frame of `packetF 9` is
the next to send; a data frame with 2 bytes is about to be dispatched. -/
def running : State :=
  { busy 3 [(0, 1), (1, 2), (2, 3)] with
    fPhase := .data, fSeq := 1, fOff := 8, fChk := 0xDC, fParam := 0xFE, sendOp := some (packetF 9)
    rPhase := .dispatch, recvOp := some 0x02, fr := ⟨0, fields 2, [9, 8]⟩, script := [.reassembler] }

/-- `running` with another event next. -/
def runningThen (e : Event) : State := { running with script := [e] }

/-- `bound` with a full table: slot 0 on stream 0x43, slot 1 on stream 0x44. -/
def full : State := { bound with slots := [slotOf 3 [(0, 1), (1, 2), (2, 3)], { slotOf 0 [] with fn := 0x44 }] }

/-- A packet with 256 bytes. -/
def packetMax : SendOp := { packetF 0 with length := 256, payload := List.replicate 256 1 }

/-- The bytes of a slot that was filled: 256 bytes of 1. -/
def fullBuffer : Memory := (List.range 256).map fun k => (k, 1)

theorem witness_DecodeEncodeAgree :
    Params.default.legal = true ∧ (Instr.startFrame (fields 0) []).wf .default = true ∧
    (Instr.endFrame (fields 8) (List.replicate 8 0)).wf .default = true ∧
    (Instr.dataFrame 0xFD (fields 8) (List.replicate 8 0)).wf .default = true ∧
    (Instr.reservedLen 0xFE (fields 9)).wf .default = true ∧ (Instr.reservedLen 0 (fields 15)).wf .default = true ∧
    (Instr.sendPacket (packetF 9)).wf .default = true ∧
    (Instr.sendPacket ⟨0, 0, 0, 0, 511, []⟩).wf .default = true := by decide

theorem witness_HeaderLayoutIsLossless : ([0xFF, 0xFF, 0xFF, 0xFF, 0xFF] : List Byte).length = headerBytes := by decide

theorem witness_RoleIsDecidedByParameterAlone :
    (fields 8).len.toNat ≤ maxFramePayload ∧ (fields 0).len.toNat ≤ maxFramePayload := by decide

theorem witness_HostStepRunsTheDecodedCommand :
    let s := { runningThen .host with hostQueue := [{ HostCmd.blank 1 with length := 0 }, HostCmd.blank 0] }
    let t := { bound with script := [.host], hostQueue := [HostCmd.blank 2] }
    s.legal = true ∧ s.nextEvent = .host ∧
      decodeCommand { HostCmd.blank 1 with length := 0 } = .ok (.sendPacket ⟨0, 0, 0, 0, 0, []⟩) ∧
      s.unitFree (.sendPacket ⟨0, 0, 0, 0, 0, []⟩) = false ∧
    t.legal = true ∧ t.nextEvent = .host ∧ decodeCommand (HostCmd.blank 2) = .ok (.receiveOneFrame 0) ∧
      t.unitFree (.receiveOneFrame 0) = true := by
  refine ⟨by decide, rfl, rfl, by decide, by decide, rfl, rfl, by decide⟩

/-- Each clause: a frame that passed the filter; the reserved lengths 9 and 15, and the legal length 8, after the
header read; a header still to be read. -/
theorem witness_UnitStepsRunTheHeldOperation :
    let fetched (len : BitVec 4) := { running with rPhase := .payload, fr := ⟨0, fields len, []⟩ }
    running.legal = true ∧ (runningThen .fragmenter).nextEvent = .fragmenter ∧
    running.sendOp = some (packetF 9) ∧ running.nextEvent = .reassembler ∧ running.recvOp = some 0x02 ∧
    running.rPhase = .dispatch ∧
    (fetched 9).legal = true ∧ (fetched 9).nextEvent = .reassembler ∧ (fetched 9).recvOp = some 0x02 ∧
    maxFramePayload < (fetched 9).fr.fields.len.toNat ∧ maxFramePayload < (fetched 15).fr.fields.len.toNat ∧
    ¬ maxFramePayload < (fetched 8).fr.fields.len.toNat ∧
    { running with rPhase := .header }.recvOp = some 0x02 ∧
    nextIs (step (fetched 9)) (fun t => decide (t.results = [receiveResult .malformedHeader])) = true := by
  refine ⟨by decide, rfl, rfl, rfl, rfl, rfl, by decide, rfl, rfl, by decide, by decide, by decide, rfl, by decide⟩

/-- Both clauses: a data frame with its payload, and a malformed header with bytes after it. -/
theorem witness_FetchReadsTheDecodedFrame :
    let s := { bound with
      rPhase := .header, rxAnswers := [.serve, .serve], rxFifo := [0x00, 0x01, 0xC1, 0x10, 0x81, 0x07, 0xFF] }
    decodeFrame s.cfg s.rxFifo = .ok (.dataFrame 0 (fields 1) [7], [0xFF]) ∧
    decodeFrame s.cfg [0x00, 0x01, 0xC1, 0x10, 0x89, 0xFF] = .ok (.reservedLen 0 (fields 9), [0xFF]) := ⟨rfl, rfl⟩

theorem witness_PlacedWordRunsNext :
    State.reset.legal = true ∧ State.reset.cfg = .default ∧ State.reset.fPhase = .idle ∧
    State.reset.sendOp = none ∧ State.reset.rPhase = .idle ∧
    (decodeTableWord 8 1).isSome = true ∧ (decodeTableWord 40 0x0F00000000).isSome = true := by decide

theorem witness_IllegalConfigurationIsRefused :
    { Params.default with paramEnd := 0xFE }.paramStart = { Params.default with paramEnd := 0xFE }.paramEnd ∧
    { Params.default with paramStart := 31 }.paramStart.toNat ≤ 31 := by decide

theorem witness_ResetLeavesEverySlotIdle :
    (runningThen .reset).legal = true ∧ (runningThen .reset).nextEvent = .reset ∧
    ¬ ∀ sl ∈ running.slots, sl.inProgress = false := by
  refine ⟨by decide, rfl, by decide⟩

theorem witness_ResetEventDropsOperationsAndKeepsTheTransport :
    (runningThen .reset).legal = true ∧ (runningThen .reset).nextEvent = .reset := ⟨by decide, rfl⟩

theorem running_unique : SlotsUnique running := by
  have h : ∀ k, k < running.slots.length → (running.slot k).inProgress = true → k = 0 := by decide
  intro i j hi hj hpi hpj _
  rw [h i hi hpi, h j hj hpj]

/-- A state with both units busy and a slot assembling has the invariant. -/
theorem running_inv : running.Inv where
  legal := by decide
  unique := running_unique
  bounded := by unfold SlotsBounded; decide
  idleEmpty := by unfold IdleSlotsEmpty; decide
  canonical := by unfold BuffersCanonical; decide
  written := by unfold BuffersWritten; decide
  binding := rfl
  send := ⟨fun op h => by cases h; exact ⟨rfl, rfl, by decide, by decide⟩, by decide, fun _ => ⟨packetF 9, rfl, rfl,
    by decide, by decide, by decide, by decide, by decide, by decide⟩⟩
  receive := ⟨by decide, fun _ => rfl, fun _ => by decide, fun _ => rfl⟩

theorem running_steps : nextIs (step running) (fun t => decide ((t.slot 0).accLen = 5)) = true := by decide

theorem witness_StepKeepsTheInvariant : running.Inv ∧ ∃ t, step running = .next t :=
  ⟨running_inv, (nextIs_elim running_steps).imp fun _ h => h.1⟩

theorem witness_StreamsStayUnique : SlotsUnique running ∧ ∃ t, step running = .next t :=
  ⟨running_unique, (nextIs_elim running_steps).imp fun _ h => h.1⟩

theorem witness_SlotRangesAndBuffersAreKept :
    (∃ t, step running = .next t) ∧ SlotsBounded running ∧ IdleSlotsEmpty running ∧ BuffersCanonical running :=
  ⟨(nextIs_elim running_steps).imp fun _ h => h.1, running_inv.bounded, running_inv.idleEmpty, running_inv.canonical⟩

theorem witness_NoFaultFromTheInvariant : running.Inv := running_inv

theorem witness_ParametersNeverChange : ∃ t, step running = .next t :=
  (nextIs_elim running_steps).imp fun _ h => h.1

/-- Both events: a reset, and an INIT of the host. -/
theorem witness_BindingChangesOnlyByInitAndReset :
    (∃ t, step (runningThen .reset) = .next t ∧ decide (t.txBound ≠ running.txBound) = true) ∧
    (∃ t, step { State.reset with
        script := [.host], hostQueue := [{ HostCmd.blank 0 with txPresent := true, rxPresent := true }] } = .next t ∧
      decide (t.rxBound ≠ State.reset.rxBound) = true) :=
  ⟨nextIs_elim (by decide), nextIs_elim (by decide)⟩

theorem witness_SendIsTurnedAwayUntouched :
    State.reset.fPhase = .idle ∧ State.reset.sendOp = none ∧ State.reset.txBound = false ∧
    bound.fPhase = .idle ∧ bound.sendOp = none ∧ bound.txBound = true ∧
    maxPacketPayload < ({ packetF 0 with length := 257 } : SendOp).length.toNat := by decide

/-- A SEND_PACKET accepted, and not yet begun. -/
def accepted : State := { bound with sendOp := some (packetF 9) }

/-- Each clause: accepted at both ends of the range of lengths; the first frame, with either answer. -/
theorem witness_SendBeginsWithAStartFrame :
    bound.fPhase = .idle ∧ bound.sendOp = none ∧ bound.txBound = true ∧
    (packetF 0).length.toNat ≤ maxPacketPayload ∧ packetMax.length.toNat ≤ maxPacketPayload ∧
    accepted.fPhase = .idle ∧ accepted.sendOp = some (packetF 9) ∧
    { accepted with txAnswers := [.ok] }.nextTxAnswer = .ok ∧
    { accepted with txAnswers := [.error 3] }.nextTxAnswer = .error 3 := by decide

theorem witness_EachDataFrameCarriesTheNextChunk :
    let s := { running with txAnswers := [.ok] }
    s.fPhase = .data ∧ s.fOff.toNat < (packetF 9).length.toNat ∧ s.nextTxAnswer = .ok ∧
      1 = min 8 ((packetF 9).length.toNat - s.fOff.toNat) ∧
      [0x3B] = ((packetF 9).payload.drop s.fOff.toNat).take 1 := by decide

theorem witness_SendEndsWithAnEndFrame :
    let s := { running with fPhase := .finish, txAnswers := [.ok] }
    s.fPhase = .finish ∧ s.nextTxAnswer = .ok := by decide

theorem witness_TransmitErrorEndsTheSend :
    let s := { running with txAnswers := [.error 13] }
    s.nextTxAnswer = .error 13 ∧ { s with fPhase := .idle }.nextTxAnswer = .error 13 ∧
      { s with fPhase := .idle }.sendOp = some (packetF 9) ∧
      { s with fPhase := .finish }.nextTxAnswer = .error 13 ∧ s.fPhase = .data ∧
      s.fOff.toNat < (packetF 9).length.toNat := by decide

theorem witness_SuccessfulSendPutsThePacketOnTheWire :
    let s := { bound with
      txAnswers := List.replicate (ceil8 packetMax.length.toNat + 2) TxAnswer.ok ++ [TxAnswer.error 0] }
    s.fPhase = .idle ∧ s.sendOp = none ∧ s.txBound = true ∧ packetMax.length.toNat ≤ maxPacketPayload ∧
      packetMax.payload.length = packetMax.length.toNat ∧
      s.txAnswers =
        List.replicate (ceil8 packetMax.length.toNat + 2) TxAnswer.ok ++ [TxAnswer.error 0] := by
  exact ⟨rfl, rfl, rfl, by decide, List.length_replicate, rfl⟩

/-- The first and the last call. -/
theorem witness_FailedSendStopsAtTheFirstError :
    bound.fPhase = .idle ∧ bound.sendOp = none ∧ bound.txBound = true ∧
    (packetF 9).payload.length = (packetF 9).length.toNat ∧
    0 < ceil8 (packetF 9).length.toNat + 2 ∧ 3 < ceil8 (packetF 9).length.toNat + 2 ∧
    ([.error 5] : List TxAnswer) = List.replicate 0 .ok ++ .error 5 :: [] ∧
    ([.ok, .ok, .ok, .error 5] : List TxAnswer) = List.replicate 3 .ok ++ .error 5 :: [] := by decide

theorem witness_FrameCountLaw :
    let s := { bound with txAnswers := List.replicate 4 .ok }
    s.cfg.legal = true ∧ s.fPhase = .idle ∧ s.sendOp = none ∧ s.txBound = true ∧
      (packetF 9).length.toNat ≤ maxPacketPayload ∧
      (packetF 9).payload.length = (packetF 9).length.toNat ∧
      s.txAnswers = List.replicate (ceil8 (packetF 9).length.toNat + 2) .ok ++ [] := by decide

theorem witness_EmptyPacketIsTwoFrames :
    let s := { bound with txAnswers := [.ok, .ok] }
    s.fPhase = .idle ∧ s.sendOp = none ∧ s.txBound = true ∧ (packetF 0).length = 0 ∧
      s.txAnswers = .ok :: .ok :: [] := by decide

theorem witness_SendIsIndependentOfTheReceiveSide :
    ∃ t, exec (.sendPacket (packetF 9)) { running with txAnswers := [.ok] } = .next t :=
  (nextIs_elim (p := fun t => decide (t.fOff = 9)) (by decide)).imp fun _ h => h.1

theorem witness_SendAlwaysEnds :
    State.reset.fPhase = .idle ∧ State.reset.sendOp = none ∧ bound.fPhase = .idle ∧ bound.sendOp = none := by decide

theorem witness_OneFramePerTransmitCall :
    ∃ t, step { runningThen .fragmenter with txAnswers := [.ok] } = .next t ∧
      decide (t.txCalls ≠ running.txCalls) = true := nextIs_elim (by decide)

theorem witness_ReceiveIsTurnedAwayOrBegins :
    State.reset.rPhase = .idle ∧ State.reset.recvOp = none ∧ State.reset.rxBound = false ∧
    bound.rPhase = .idle ∧ bound.recvOp = none ∧ bound.rxBound = true := by decide

/-- Five bytes served; five bytes and a failing transport; four bytes. -/
theorem witness_HeaderReadTakesFiveBytesOrNone :
    let s := { bound with rPhase := .header, rxAnswers := [.serve], rxFifo := [1, 2, 3, 4, 5] }
    s.rPhase = .header ∧ s.nextRxAnswer = .serve ∧ 5 ≤ s.rxFifo.length ∧
      { s with rxAnswers := [.fail] }.nextRxAnswer = .fail ∧ { s with rxFifo := [1, 2, 3, 4] }.rxFifo.length < 5 := by
  decide

/-- Lengths 0, 1 and 8. -/
theorem witness_PayloadReadTakesTheDeclaredLength :
    let s (len : BitVec 4) (n : Nat) := { bound with
      rPhase := .payload, fr := ⟨0, fields len, []⟩, rxAnswers := [.serve], rxFifo := List.replicate n 7 }
    (s 0 0).fr.fields.len.toNat = 0 ∧ (s 1 1).fr.fields.len.toNat = 1 ∧ 1 ≤ (s 1 1).rxFifo.length ∧
      (s 8 8).fr.fields.len.toNat = 8 ∧ (s 8 8).nextRxAnswer = .serve ∧ 8 ≤ (s 8 8).rxFifo.length ∧
      (s 8 7).rxFifo.length < 8 := by decide

theorem witness_FilterDropsForeignFrames :
    let s := { full with
      rxAnswers := [.serve, .serve], lockHeld := true, rxFifo := [0xFE, 0x01, 0xC1, 0x10, 0x80, 0xFF] }
    s.rPhase = .idle ∧ s.rxBound = true ∧ s.rxAnswers = .serve :: .serve :: [] ∧
      decodeFrame s.cfg s.rxFifo = .ok (.startFrame (fields 0) [], [0xFF]) ∧
      (headerFields (s.rxFifo.take headerBytes)).len.toNat ≤ maxFramePayload ∧
      (headerFields (s.rxFifo.take headerBytes)).dst ≠ 0x03 ∧
      { s with rPhase := .filter, fr := ⟨0xFE, fields 0, []⟩ }.fr.fields.dst = 0x02 := by
  refine ⟨rfl, rfl, rfl, rfl, by decide, by decide, rfl⟩

/-- The declared lengths 9 and 15. -/
theorem witness_MalformedHeaderConsumesFiveBytes :
    let s (ctl : Byte) := { bound with rxAnswers := [.serve], rxFifo := [0, 0x01, 0xC1, 0x10, ctl] }
    (s 0x89).rPhase = .idle ∧ (s 0x89).rxBound = true ∧ (s 0x89).rxAnswers = .serve :: [] ∧
      5 ≤ (s 0x89).rxFifo.length ∧ (headerFields ((s 0x89).rxFifo.take 5)).len.toNat = 9 ∧
      (headerFields ((s 0x8F).rxFifo.take 5)).len.toNat = 15 ∧
      maxFramePayload < (headerFields ((s 0x89).rxFifo.take 5)).len.toNat := by decide

/-- With nothing pending, and with one whole frame. -/
theorem witness_WholeFramesStayWhole :
    (∃ t, callReceive 2 { bound with rxAnswers := [.serve, .serve] } = .next t ∧
      (wholeFrames [] && decide (t.results = [receiveResult .noData])) = true) ∧
    (∃ t, callReceive 2 { bound with
        rxAnswers := [.serve, .serve], rxFifo := [0x00, 0x01, 0xC1, 0x10, 0x81, 0x07] } = .next t ∧
      (wholeFrames [0x00, 0x01, 0xC1, 0x10, 0x81, 0x07] && decide (t.results = [receiveResult .inProgress])) = true) :=
  ⟨nextIs_elim (by decide), nextIs_elim (by decide)⟩

/-- A restart of the stream of slot 1 with slot 0 idle; the first idle slot after a busy one. -/
theorem witness_StartTakesTheLowestSlot :
    let s := { bound with slots := [Slot.reset, slotOf 3 []] }
    let t := { bound with slots := [slotOf 3 [], Slot.reset] }
    s.lockHeld = false ∧ 1 < s.slots.length ∧ (s.slot 1).assembles 0x43 = true ∧
      (∀ j, j < 1 → (s.slot j).assembles 0x43 = false) ∧
    (∀ sl ∈ t.slots, sl.assembles 0x44 = false) ∧ (t.slot 1).inProgress = false ∧
      ∀ j, j < 1 → (t.slot j).inProgress = true := by decide

theorem witness_NoFreeSlotForAnyRole :
    full.lockHeld = false ∧ (∀ sl ∈ full.slots, sl.inProgress = true ∧ sl.fn ≠ 0x45) ∧
    (∃ sl ∈ full.slots, sl.inProgress = false ∨ sl.fn = 0x44) ∧
    (∃ sl ∈ bound.slots, sl.inProgress = false ∨ sl.fn = 0x44) := by decide

/-- A frame that fills the slot, and a frame of length 0 for a full one. -/
theorem witness_DataIsAppendedToItsSlot :
    (busy 248 []).lockHeld = false ∧ resolve (busy 248 []).slots 0x43 = some 0 ∧
    ((busy 248 []).slot 0).inProgress = true ∧ ((busy 248 []).slot 0).fn = 0x43 ∧
    ((busy 248 []).slot 0).accLen.toNat + (fields 8).len.toNat ≤ 256 ∧
    (List.replicate 8 (0 : Byte)).length = (fields 8).len.toNat ∧
    resolve (busy 256 []).slots 0x43 = some 0 ∧
    ((busy 256 []).slot 0).accLen.toNat + (fields 0).len.toNat ≤ 256 ∧
    ([] : List Byte).length = (fields 0).len.toNat := by decide

theorem witness_DataStoresOnlyAtTheSlotsEnd :
    (∃ t, exec (.dataFrame 0 (fields 2) [9, 8]) (busy 3 []) = .next t ∧
      (decide (resolve (busy 3 []).slots 0x43 = some 0) && decide (t.readByte 0 4 = some 8)) = true) ∧
    (∃ t, exec (.dataFrame 0 { fields 1 with fn := 0x45 } [9]) full = .next t ∧
      decide (resolve full.slots 0x45 = none) = true) :=
  ⟨nextIs_elim (by decide), nextIs_elim (p := fun _ => decide (resolve full.slots 0x45 = none)) (by decide)⟩

theorem witness_OnlyDataStoresBytes :
    (∃ t, exec (.endFrame (fields 3) [1, 6, 0]) full = .next t ∧ (!(t.slot 0).inProgress) = true) ∧
    (∃ t, exec (.receiveOneFrame 2) { running with rPhase := .filter } = .next t ∧
      decide (t.rPhase = .dispatch) = true) :=
  ⟨nextIs_elim (by decide), nextIs_elim (by decide)⟩

theorem witness_StrayDataIsIgnored :
    (∀ sl ∈ (busy 3 []).slots, sl.assembles 0x44 = false) ∧ (∃ sl ∈ (busy 3 []).slots, sl.inProgress = false) ∧
    (∀ sl ∈ full.slots, sl.assembles 0x45 = false) ∧ ∀ sl ∈ full.slots, sl.inProgress = true := by decide

/-- A sum of 257 and a sum of 256. -/
theorem witness_OverflowAbortsTheSlot :
    (busy 250 []).lockHeld = false ∧ resolve (busy 250 []).slots 0x43 = some 0 ∧
    ((busy 250 []).slot 0).assembles 0x43 = true ∧
    256 < ((busy 250 []).slot 0).accLen.toNat + (fields 7).len.toNat ∧
    ((busy 250 []).slot 0).accLen.toNat + (fields 6).len.toNat ≤ 256 := by decide

/-- Lengths 0 and 3. -/
theorem witness_EndDeliversThePacket :
    let s := busy 3 [(0, 1), (1, 2), (2, 3)]
    s.lockHeld = false ∧ resolve s.slots 0x43 = some 0 ∧ (s.slot 0).inProgress = true ∧ 3 ≤ (fields 3).len.toNat ∧
      (s.slot 0).accLen.toNat ≤ 256 ∧ ([1, 2, 3] : List Byte).length = (s.slot 0).accLen.toNat ∧
      (∀ k, k < (s.slot 0).accLen.toNat → s.readByte 0 k = ([1, 2, 3] : List Byte)[k]?) ∧
      (([1, 6, 0x12] : List Byte).getD 0 0).toNat = ((s.slot 0).accLen.toNat + 7) / 8 ∧
      ([1, 6, 0x12] : List Byte).getD 1 0 = checksum8 s.cfg.checksum (chkInit s.cfg.checksum) [1, 2, 3] ∧
      (([0, 0, 0x12] : List Byte).getD 0 0).toNat = (((busy 0 []).slot 0).accLen.toNat + 7) / 8 ∧
      ([0, 0, 0x12] : List Byte).getD 1 0 = checksum8 s.cfg.checksum (chkInit s.cfg.checksum) [] := by decide

/-- A full slot: 256 bytes, frame count 32. -/
theorem witness_EndDeliversThePacket_full :
    ((busy 256 fullBuffer).slot 0).accLen.toNat = 256 ∧
    (∀ k, k < 256 → (busy 256 fullBuffer).readByte 0 k = (List.replicate 256 1)[k]?) := by
  refine ⟨by decide, fun k hk => ?_⟩
  have h : ((List.range 256).all fun k => decide ((busy 256 fullBuffer).readByte 0 k = some 1)) = true := by
    decide +kernel
  have := List.all_eq_true.1 h k (List.mem_range.2 hk)
  rw [of_decide_eq_true this, List.getElem?_replicate, if_pos hk]

theorem witness_WrongFrameCountAborts :
    resolve (busy 8 []).slots 0x43 = some 0 ∧ ((busy 8 []).slot 0).inProgress = true ∧ 3 ≤ (fields 3).len.toNat ∧
    (([2, 0, 0] : List Byte).getD 0 0).toNat ≠ (((busy 8 []).slot 0).accLen.toNat + 7) / 8 := by decide

theorem witness_WrongChecksumAborts :
    let s := busy 3 [(0, 1), (1, 2), (2, 3)]
    resolve s.slots 0x43 = some 0 ∧ (s.slot 0).inProgress = true ∧ (s.slot 0).accLen.toNat ≤ 256 ∧
      ([1, 2, 3] : List Byte).length = (s.slot 0).accLen.toNat ∧
      (∀ k, k < (s.slot 0).accLen.toNat → s.readByte 0 k = ([1, 2, 3] : List Byte)[k]?) ∧
      (([1, 7, 0] : List Byte).getD 0 0).toNat = ((s.slot 0).accLen.toNat + 7) / 8 ∧
      ([1, 7, 0] : List Byte).getD 1 0 ≠ checksum8 s.cfg.checksum (chkInit s.cfg.checksum) [1, 2, 3] := by decide

theorem witness_StrayAndShortEndFrames :
    resolve bound.slots 0x43 = some 0 ∧ (bound.slot 0).inProgress = false ∧
    resolve (busy 3 []).slots 0x43 = some 0 ∧ ((busy 3 []).slot 0).inProgress = true ∧
    (fields 2).len.toNat < 3 := by decide

theorem witness_EndAlwaysFreesItsSlot :
    running.Inv ∧ running.lockHeld = false ∧ resolve running.slots 0x43 = some 0 ∧
    (running.slot 0).inProgress = true := ⟨running_inv, rfl, by decide, by decide⟩

theorem witness_FlippedByteIsInvalidCrc :
    let s := busy 3 [(0, 1), (1, 2), (2, 3)]
    ChecksumSensitive s.cfg.checksum ∧ resolve s.slots 0x43 = some 0 ∧
      bufRead (s.slot 0).buf 0 (s.slot 0).accLen.toNat = .ok ([1] ++ 2 :: [3]) ∧ (0x82 : Byte) ≠ 2 ∧
      (([1, 0x86, 0] : List Byte).getD 0 0).toNat = ceil8 ([1] ++ (0x82 : Byte) :: [3]).length ∧
      ([1, 0x86, 0] : List Byte).getD 1 0 =
        checksum8 s.cfg.checksum (chkInit s.cfg.checksum) ([1] ++ 0x82 :: [3]) :=
  ⟨tSum_sensitive, by decide, rfl, by decide, by decide, by decide⟩

theorem witness_IgnoredFieldsHaveNoEffect :
    (fields 3).fn = { fields 3 with rsvId := 7, request := true }.fn ∧
    (fields 3).len = { fields 3 with rsvId := 7, request := true }.len ∧
    (fields 3).src = { fields 3 with rsvId := 7, request := true }.src ∧
    (fields 3).dst = { fields 3 with rsvId := 7, request := true }.dst := by decide

theorem witness_LockIsFreedOnEveryPath :
    (∃ t, exec (.startFrame (fields 0) []) bound = .next t) ∧ bound.lockHeld = false ∧
    { bound with lockHeld := true }.lockHeld = true :=
  ⟨(nextIs_elim (p := fun t => !t.lockHeld) (by decide)).imp fun _ h => h.1, rfl, rfl⟩

theorem witness_OneFrameOneSlotPerCall :
    let s := { busy 3 [(0, 1), (1, 2), (2, 3)] with
      rxAnswers := [.serve, .serve], rxFifo := [0x00, 0x01, 0xC1, 0x10, 0x81, 0x07] }
    s.rPhase = .idle ∧ s.lockHeld = false ∧
      ∃ t, callReceive 2 s = .next t ∧ decide (t.slot 0 ≠ s.slot 0) = true :=
  ⟨rfl, rfl, nextIs_elim (by decide)⟩

theorem witness_ReceiveAlwaysEnds :
    (busy 3 [(0, 1), (1, 2), (2, 3)]).rPhase = .idle ∧ (busy 3 [(0, 1), (1, 2), (2, 3)]).lockHeld = false ∧
    SlotsBounded (busy 3 [(0, 1), (1, 2), (2, 3)]) ∧ BuffersWritten (busy 3 [(0, 1), (1, 2), (2, 3)]) :=
  ⟨rfl, rfl, running_inv.bounded, running_inv.written⟩

theorem witness_SendAndReceiveStepsCommute :
    receiveSide (.receiveOneFrame 2) = true ∧
    ∃ s1, exec (.sendPacket (packetF 9)) { running with txAnswers := [.error 1] } = .next s1 ∧
      nextIs (exec (.receiveOneFrame 2) s1) (fun s2 => decide (s2.results.length = 2)) = true :=
  ⟨rfl, nextIs_elim (by decide)⟩

/-- A packet of 9 bytes and an empty one; the sender's answers and the receiver's slots as the statement asks. -/
theorem witness_FragmentThenReassembleRoundTrip :
    let s (n : Nat) := { busy 3 [(0, 1), (1, 2), (2, 3)] with
      rxFifo := (packetFrames bound.cfg (packetF n)).flatten, rxAnswers := List.replicate (2 * ceil8 n + 5) .serve }
    (s 9).legal = true ∧ (packetF 9).length.toNat ≤ maxPacketPayload ∧
      (packetF 9).payload.length = (packetF 9).length.toNat ∧ 2 = ceil8 (packetF 9).length.toNat ∧
      (s 9).rPhase = .idle ∧ (s 9).rxBound = true ∧ (s 9).lockHeld = false ∧
      (∀ sl ∈ (s 9).slots, sl.assembles (packetF 9).fn = false) ∧ (∃ sl ∈ (s 9).slots, sl.inProgress = false) ∧
      (s 9).rxFifo = (packetFrames (s 9).cfg (packetF 9)).flatten ∧
      (packetF 0).payload.length = (packetF 0).length.toNat ∧ 0 = ceil8 (packetF 0).length.toNat ∧
      (s 0).rxFifo = (packetFrames (s 0).cfg (packetF 0)).flatten := by decide

/-- By an END frame, and by an overflowing data frame. -/
theorem witness_AssemblyEndsOnlyByItsOwnFrames :
    (∃ t, step { running with fr := ⟨0xFF, fields 3, [1, 6, 0]⟩ } = .next t ∧
      ((running.slot 0).inProgress && !(t.slot 0).inProgress) = true) ∧
    (∃ t, step { running with
        slots := [slotOf 255 [], Slot.reset], fr := ⟨0, fields 2, [9, 8]⟩ } = .next t ∧
      (!(t.slot 0).inProgress) = true) :=
  ⟨nextIs_elim (by decide), nextIs_elim (by decide)⟩

theorem witness_SlotTableIsWrittenOnlyInStepC :
    ∃ t, step running = .next t ∧ decide (t.slots ≠ running.slots) = true := nextIs_elim (by decide)

theorem witness_ResultsAreDeliveredOnce :
    ∃ t, step running = .next t ∧ decide (t.results = [receiveResult .inProgress]) = true := nextIs_elim (by decide)

end Sys2Proof.Machine.Test
end

/-! PROOFS. What reset does to the slot table (spec/10_state.md section 5). -/

namespace Sys2Proof.Machine

@[simp] theorem Slot.reset_inProgress : Slot.reset.inProgress = false := rfl

/-- A table of slots after reset, of any capacity, assembles nothing (R37). -/
theorem inProgress_of_mem_replicate_reset {n : Nat} {sl : Slot} (h : sl ∈ List.replicate n Slot.reset) :
    sl.inProgress = false := by
  rw [List.eq_of_mem_replicate h, Slot.reset_inProgress]

/-- A reset event always goes on, to the block's reset values. -/
theorem step_of_reset {s : State} (hl : s.legal = true) (he : s.nextEvent = .reset) :
    step s = .next s.afterEvent.resetBlock :=
  step_next.2 ⟨hl, by rw [he]; rfl⟩

/-- Settles O10: both tables are copies of `Slot.reset`, the reset state's and the one the reset event leaves. -/
theorem resetLeavesEverySlotIdle : Obligations.ResetLeavesEverySlotIdle := by
  refine ⟨fun _ h => inProgress_of_mem_replicate_reset h, fun s hl he => ?_⟩
  refine ⟨s.afterEvent.resetBlock, step_of_reset hl he, ?_, fun sl h => ?_⟩
  · simp only [State.resetBlock_slots, State.afterEvent_slots, List.length_replicate]
  · rw [State.resetBlock_slots] at h
    exact inProgress_of_mem_replicate_reset h

end Sys2Proof.Machine

/-! PROOFS. The role of a frame, and the operation of a frame of a legal length (spec/30_encoding.md R77). -/

namespace Sys2Proof

/-- The START sentinel is looked at first: it decides even where both sentinels are one value. -/
theorem role_of_eq_paramStart {p : Params} {param : Byte} (hs : param = p.paramStart) :
    role p param = .start := if_pos hs

theorem role_of_eq_paramEnd {p : Params} {param : Byte} (hs : param ≠ p.paramStart) (he : param = p.paramEnd) :
    role p param = .finish := (if_neg hs).trans (if_pos he)

theorem role_of_ne {p : Params} {param : Byte} (hs : param ≠ p.paramStart) (he : param ≠ p.paramEnd) :
    role p param = .data := (if_neg hs).trans (if_neg he)

theorem role_eq_data_iff {p : Params} {param : Byte} :
    role p param = .data ↔ param ≠ p.paramStart ∧ param ≠ p.paramEnd := by
  by_cases hs : param = p.paramStart
  · simp [role_of_eq_paramStart hs, ← hs]
  by_cases he : param = p.paramEnd
  · simp [role_of_eq_paramEnd hs he, ← he]
  · simp [role_of_ne hs he, hs, he]

/-- With the default sentinels 0xFE and 0xFF, the two greatest bytes, the DATA values are the bytes below both. -/
theorem role_default_eq_data_iff (param : Byte) : role .default param = .data ↔ param.toNat ≤ 0xFD := by
  have hs : Params.default.paramStart = 0xFE := rfl
  have he : Params.default.paramEnd = 0xFF := rfl
  rw [role_eq_data_iff, hs, he]
  bv_omega

/-- A frame of a legal length is the operation of its role. -/
theorem frameInstr_of_role_start {p : Params} {fr : FrameReg} (hl : fr.fields.len.toNat ≤ maxFramePayload)
    (hr : role p fr.param = .start) : frameInstr p fr = .startFrame fr.fields fr.payload := by
  rw [frameInstr, if_neg (Nat.not_lt.2 hl), hr]

theorem frameInstr_of_role_finish {p : Params} {fr : FrameReg} (hl : fr.fields.len.toNat ≤ maxFramePayload)
    (hr : role p fr.param = .finish) : frameInstr p fr = .endFrame fr.fields fr.payload := by
  rw [frameInstr, if_neg (Nat.not_lt.2 hl), hr]

theorem frameInstr_of_role_data {p : Params} {fr : FrameReg} (hl : fr.fields.len.toNat ≤ maxFramePayload)
    (hr : role p fr.param = .data) : frameInstr p fr = .dataFrame fr.param fr.fields fr.payload := by
  rw [frameInstr, if_neg (Nat.not_lt.2 hl), hr]

/-- Settles O4: the role is read off the sentinels in the order START, END, and a frame of a legal length has the
operation of its role in each of the three cases. -/
theorem roleIsDecidedByParameterAlone : Obligations.RoleIsDecidedByParameterAlone := by
  refine ⟨fun _ _ => rfl, fun p fr hl => ?_, role_default_eq_data_iff⟩
  split
  next hs => exact frameInstr_of_role_start hl (role_of_eq_paramStart hs)
  next hs =>
    split
    next he => exact frameInstr_of_role_finish hl (role_of_eq_paramEnd hs he)
    next he => exact frameInstr_of_role_data hl (role_of_ne hs he)

end Sys2Proof

/-! PROOFS. SEND_PACKET and the receive side (spec/41_fragmenter.md R119): every operation of the fragmenter commutes
with exchanging the receive side. -/

namespace Sys2Proof.Machine

/-- `s` with the receive side of `w`: the slots, the lock, `rx` and the RECEIVE_ONE_FRAME in progress. -/
def State.withReceiveSide (s w : State) : State :=
  { s with
    slots := w.slots, rxFifo := w.rxFifo, rxBound := w.rxBound, lockHeld := w.lockHeld, rPhase := w.rPhase
    recvOp := w.recvOp, fr := w.fr, rxAnswers := w.rxAnswers, rxDraws := w.rxDraws }

/-- The same outcome with the receive side of `w`. -/
def Outcome.withReceiveSide (o : Outcome) (w : State) : Outcome := andThen o fun t => .next (t.withReceiveSide w)

@[simp] theorem Outcome.withReceiveSide_next (s w : State) :
    Outcome.withReceiveSide (.next s) w = .next (s.withReceiveSide w) := rfl

theorem Outcome.withReceiveSide_ite (c : Prop) [Decidable c] (a b : Outcome) (w : State) :
    Outcome.withReceiveSide (if c then a else b) w =
      if c then Outcome.withReceiveSide a w else Outcome.withReceiveSide b w :=
  apply_ite (Outcome.withReceiveSide · w) c a b

@[simp] theorem State.withReceiveSide_cfg (s w : State) : (s.withReceiveSide w).cfg = s.cfg := rfl
@[simp] theorem State.withReceiveSide_txBound (s w : State) : (s.withReceiveSide w).txBound = s.txBound := rfl
@[simp] theorem State.withReceiveSide_fPhase (s w : State) : (s.withReceiveSide w).fPhase = s.fPhase := rfl
@[simp] theorem State.withReceiveSide_fSeq (s w : State) : (s.withReceiveSide w).fSeq = s.fSeq := rfl
@[simp] theorem State.withReceiveSide_fOff (s w : State) : (s.withReceiveSide w).fOff = s.fOff := rfl
@[simp] theorem State.withReceiveSide_fChk (s w : State) : (s.withReceiveSide w).fChk = s.fChk := rfl
@[simp] theorem State.withReceiveSide_fParam (s w : State) : (s.withReceiveSide w).fParam = s.fParam := rfl
@[simp] theorem State.withReceiveSide_sendOp (s w : State) : (s.withReceiveSide w).sendOp = s.sendOp := rfl
@[simp] theorem State.withReceiveSide_nextTxAnswer (s w : State) :
    (s.withReceiveSide w).nextTxAnswer = s.nextTxAnswer := rfl

/-- Two tests and a register write of the send side: nothing of it is the receive side's. -/
theorem acceptSend_withReceiveSide (op : SendOp) (s w : State) :
    acceptSend op (s.withReceiveSide w) = Outcome.withReceiveSide (acceptSend op s) w := by
  simp only [acceptSend, State.withReceiveSide_txBound, Outcome.withReceiveSide_ite]
  rfl

/-- One `transmit` call, if what follows an `ok` does not look at the receive side. -/
theorem emit_withReceiveSide (bytes : List Byte) (onOk : State → State) (s w : State)
    (hok : ∀ u, onOk (u.withReceiveSide w) = (onOk u).withReceiveSide w) :
    emit bytes onOk (s.withReceiveSide w) = Outcome.withReceiveSide (emit bytes onOk s) w := by
  unfold emit
  rw [State.withReceiveSide_nextTxAnswer]
  cases s.nextTxAnswer with
  | ok => exact congrArg Host.Outcome.next (hok (s.transmit bytes))
  | error n => rfl

theorem emitStart_withReceiveSide (op : SendOp) (s w : State) :
    emitStart op (s.withReceiveSide w) = Outcome.withReceiveSide (emitStart op s) w :=
  emit_withReceiveSide (startBytes s.cfg op) (State.afterStart op) (s.setupSend op) w fun _ => rfl

theorem emitData_withReceiveSide (op : SendOp) (s w : State) :
    emitData op (s.withReceiveSide w) = Outcome.withReceiveSide (emitData op s) w := by
  have hemit := emit_withReceiveSide (dataBytes s.cfg op s.fSeq s.fOff.toNat) (State.afterData op) s w fun _ => rfl
  simp only [emitData, State.withReceiveSide_fOff, State.withReceiveSide_cfg, State.withReceiveSide_fSeq,
    Outcome.withReceiveSide_ite, hemit]
  rfl

theorem emitEnd_withReceiveSide (op : SendOp) (s w : State) :
    emitEnd op (s.withReceiveSide w) = Outcome.withReceiveSide (emitEnd op s) w :=
  emit_withReceiveSide (endBytes s.cfg op s.fSeq s.fChk s.fParam) (fun t => t.finishSend .ok) s w fun _ => rfl

/-- A step of SEND_PACKET with the receive side exchanged is the step itself with the receive side exchanged. -/
theorem exec_sendPacket_withReceiveSide (op : SendOp) (s w : State) :
    exec (.sendPacket op) (s.withReceiveSide w) = Outcome.withReceiveSide (exec (.sendPacket op) s) w := by
  simp only [exec, execSendPacket, State.withReceiveSide_fPhase, State.withReceiveSide_sendOp]
  cases s.fPhase with
  | idle =>
    cases s.sendOp with
    | none => exact acceptSend_withReceiveSide op s w
    | some _ => exact emitStart_withReceiveSide op s w
  | start => exact emitStart_withReceiveSide op s w
  | data => exact emitData_withReceiveSide op s w
  | finish => exact emitEnd_withReceiveSide op s w

/-- Settles O30: the receive side to exchange is that of any state that holds the nine given values. -/
theorem sendIsIndependentOfTheReceiveSide : Obligations.SendIsIndependentOfTheReceiveSide := by
  intro op s t slots rxFifo rxBound lockHeld rPhase recvOp fr rxAnswers rxDraws h
  have key := exec_sendPacket_withReceiveSide op s { s with
    slots := slots, rxFifo := rxFifo, rxBound := rxBound, lockHeld := lockHeld, rPhase := rPhase
    recvOp := recvOp, fr := fr, rxAnswers := rxAnswers, rxDraws := rxDraws }
  rw [h] at key
  exact key

end Sys2Proof.Machine

/-! PROOFS. The `parameter` field on the wire: the first byte of a header (spec/30_encoding.md R72). -/

namespace Sys2Proof

/-- What is shifted to bit 8 and above does not show in the low byte of a word. -/
theorem extractLsb'_or_shiftLeft (w v : BitVec 32) {n : Nat} (hn : 8 ≤ n) :
    (w ||| v <<< n).extractLsb' 0 8 = w.extractLsb' 0 8 := by
  ext i hi
  have hin : i < n := by omega
  simp [hin]

theorem extractLsb'_setWidth (b : Byte) : (b.setWidth 32).extractLsb' 0 8 = b := by
  ext i hi
  have h32 : i < 32 := by omega
  simp [hi, h32]

theorem headerParam_cons (b : Byte) (bytes : List Byte) : headerParam (b :: bytes) = b := by
  simp only [headerParam, headerId, List.getD_cons_zero]
  rw [extractLsb'_or_shiftLeft _ _ (by decide), extractLsb'_or_shiftLeft _ _ (by decide),
    extractLsb'_or_shiftLeft _ _ (by decide), extractLsb'_setWidth]

/-- The low byte of the identifier word is the parameter, whatever the other fields are. -/
theorem identifierWord_low (param : Byte) (f : Fields) : (identifierWord param f).extractLsb' 0 8 = param := by
  simp only [identifierWord]
  rw [extractLsb'_or_shiftLeft _ _ (by decide), extractLsb'_or_shiftLeft _ _ (by decide),
    extractLsb'_or_shiftLeft _ _ (by decide), extractLsb'_or_shiftLeft _ _ (by decide), extractLsb'_setWidth]

@[simp] theorem headerParam_encodeFrame (p : Params) (param : Byte) (src dst fn : Addr) (payload : List Byte) :
    headerParam (encodeFrame p param src dst fn payload) = param :=
  (headerParam_cons _ _).trans (identifierWord_low _ _)

/-- The sentinels of a legal configuration differ and lie above every sequence number (spec/30_encoding.md R85). -/
theorem Params.legal_eq_true {p : Params} :
    p.legal = true ↔ p.paramStart ≠ p.paramEnd ∧ 31 < p.paramStart.toNat ∧ 31 < p.paramEnd.toNat := by
  simp only [Params.legal, Bool.and_eq_true, decide_eq_true_eq, and_assoc]

/-- A sequence number is never taken for a sentinel. -/
theorem role_ofNat_of_legal {p : Params} (h : p.legal = true) {k : Nat} (hk : k < 32) :
    role p (BitVec.ofNat 8 k) = .data := by
  obtain ⟨-, hstart, hend⟩ := Params.legal_eq_true.1 h
  have hval : (BitVec.ofNat 8 k).toNat = k := by rw [BitVec.toNat_ofNat]; omega
  exact role_of_ne (fun e => by rw [← e] at hstart; omega) (fun e => by rw [← e] at hend; omega)

end Sys2Proof

/-! PROOFS. The frames of a packet: START and the data frames, then END (spec/41_fragmenter.md R118, R125). -/

namespace Sys2Proof.Machine

/-- START and the first `k` data frames of a packet. -/
def framesBeforeEnd (p : Params) (op : SendOp) (k : Nat) : List (List Byte) :=
  startBytes p op :: (List.range k).map fun j => dataBytes p op (BitVec.ofNat 8 j) (maxFramePayload * j)

@[simp] theorem framesBeforeEnd_zero (p : Params) (op : SendOp) : framesBeforeEnd p op 0 = [startBytes p op] := rfl

theorem framesBeforeEnd_succ (p : Params) (op : SendOp) (k : Nat) :
    framesBeforeEnd p op (k + 1) =
      framesBeforeEnd p op k ++ [dataBytes p op (BitVec.ofNat 8 k) (maxFramePayload * k)] := by
  simp [framesBeforeEnd, List.range_succ]

/-- The END frame of a packet, over the `length` bytes that were sent. -/
def lastFrame (p : Params) (op : SendOp) : List Byte :=
  endBytes p op (BitVec.ofNat 8 (ceil8 op.length.toNat))
    (checksum8 p.checksum (chkInit p.checksum) (op.payload.take op.length.toNat)) op.param

/-- For a payload operand of the declared length these are the packet's frames. -/
theorem packetFrames_eq (p : Params) (op : SendOp) (h : op.payload.length = op.length.toNat) :
    packetFrames p op = framesBeforeEnd p op (ceil8 op.length.toNat) ++ [lastFrame p op] := by
  rw [lastFrame, ← h, List.take_length, h]
  rfl

/-- A frame counts as a data frame by its role. -/
def isData (p : Params) (bytes : List Byte) : Bool := decide (role p (headerParam bytes) = .data)

theorem isData_startBytes (p : Params) (op : SendOp) : isData p (startBytes p op) = false := by
  rw [isData, startBytes, headerParam_encodeFrame, role_of_eq_paramStart rfl]
  rfl

theorem isData_lastFrame {p : Params} (h : p.legal = true) (op : SendOp) : isData p (lastFrame p op) = false := by
  rw [isData, lastFrame, endBytes, headerParam_encodeFrame,
    role_of_eq_paramEnd (Params.legal_eq_true.1 h).1.symm rfl]
  rfl

theorem isData_dataBytes {p : Params} (h : p.legal = true) (op : SendOp) {k : Nat} (hk : k < 32) (off : Nat) :
    isData p (dataBytes p op (BitVec.ofNat 8 k) off) = true := by
  rw [isData, dataBytes, headerParam_encodeFrame, role_ofNat_of_legal h hk]
  rfl

/-- Of START and `k` data frames, `k` are data frames. -/
theorem countP_isData_framesBeforeEnd {p : Params} (h : p.legal = true) (op : SendOp) {k : Nat} (hk : k ≤ 32) :
    (framesBeforeEnd p op k).countP (isData p) = k := by
  induction k with
  | zero => simp [isData_startBytes]
  | succ k ih =>
    rw [framesBeforeEnd_succ, List.countP_append, ih (by omega), List.countP_singleton,
      isData_dataBytes h op (by omega)]
    rfl

theorem headerParam_lastFrame (p : Params) (op : SendOp) : headerParam (lastFrame p op) = p.paramEnd :=
  headerParam_encodeFrame ..

/-- The first payload byte of the END frame is the frame count (spec/41_fragmenter.md R115). -/
theorem lastFrame_count (p : Params) (op : SendOp) :
    (lastFrame p op).getD headerBytes 0 = BitVec.ofNat 8 (ceil8 op.length.toNat) := rfl

end Sys2Proof.Machine

/-! PROOFS. A whole SEND_PACKET whose calls answer ok: the loop of spec/41_fragmenter.md R121 as an induction over
the data frames sent. -/

namespace Sys2Proof.Machine

theorem continueCall_of_not_busy {busy : State → Bool} {s : State} (h : busy s = false) (i : Instr) (fuel : Nat) :
    continueCall busy i fuel s = .next s := by
  cases fuel <;> simp [continueCall, h]

theorem continueCall_succ {busy : State → Bool} {i : Instr} {s t : State} (hb : busy s = true)
    (h : exec i s = .next t) (fuel : Nat) : continueCall busy i (fuel + 1) s = continueCall busy i fuel t := by
  rw [continueCall, if_pos hb, h, andThen_next]

theorem State.sendBusy_of_sendOp {s : State} {op : SendOp} (h : s.sendOp = some op) : s.sendBusy = true := by
  simp [State.sendBusy, h]

theorem State.sendBusy_of_fPhase {s : State} (h : s.fPhase ≠ .idle) : s.sendBusy = true := by
  simp [State.sendBusy, h]

theorem State.nextTxAnswer_of_cons {s : State} {a : TxAnswer} {rest : List TxAnswer} (h : s.txAnswers = a :: rest) :
    s.nextTxAnswer = a := by
  rw [State.nextTxAnswer, h]

theorem emit_of_ok {s : State} (h : s.nextTxAnswer = .ok) (bytes : List Byte) (onOk : State → State) :
    emit bytes onOk s = .next (onOk (s.transmit bytes)) := by
  rw [emit, h]

theorem emitStart_of_ok {s : State} (h : s.nextTxAnswer = .ok) (op : SendOp) :
    emitStart op s = .next (((s.setupSend op).transmit (startBytes s.cfg op)).afterStart op) := by
  rw [emitStart, emit_of_ok ((State.setupSend_nextTxAnswer s op).trans h)]

/-- A SEND_PACKET that is accepted: the fragmenter is free, the block bound, the packet not too long. -/
structure ReadyToSend (op : SendOp) (s : State) : Prop where
  phase : s.fPhase = .idle
  free : s.sendOp = none
  bound : s.txBound = true
  fits : op.length.toNat ≤ maxPacketPayload

theorem ReadyToSend.exec {op : SendOp} {s : State} (h : ReadyToSend op s) :
    exec (.sendPacket op) s = .next { s with sendOp := some op } := by
  rw [exec_sendPacket_free op s h.phase h.free, acceptSend, h.bound, if_neg (by decide), if_neg (Nat.not_lt.2 h.fits)]

theorem exec_sendPacket_data (op : SendOp) {s : State} (hp : s.fPhase = .data) (ho : s.fOff.toNat < op.length.toNat)
    (ha : s.nextTxAnswer = .ok) :
    exec (.sendPacket op) s = .next ((s.transmit (dataBytes s.cfg op s.fSeq s.fOff.toNat)).afterData op) := by
  simp only [exec, execSendPacket, hp]
  rw [emitData, if_pos ho, emit_of_ok ha]

theorem exec_sendPacket_finish (op : SendOp) {s : State} (hp : s.fPhase = .finish) (ha : s.nextTxAnswer = .ok) :
    exec (.sendPacket op) s = .next ((s.transmit (endBytes s.cfg op s.fSeq s.fChk s.fParam)).finishSend .ok) := by
  simp only [exec, execSendPacket, hp]
  rw [emitEnd, emit_of_ok ha]

theorem sameReceiveSide_of_exec_sendPacket {op : SendOp} {s t : State} (h : exec (.sendPacket op) s = .next t) :
    SameReceiveSide s t := by
  obtain ⟨t', ht', frame⟩ := exec_sendPacket_frame op s
  obtain rfl : t' = t := Host.Outcome.next.inj (ht'.symm.trans h)
  exact frame.same

theorem SameReceiveSide.trans {s t u : State} (h : SameReceiveSide s t) (h' : SameReceiveSide t u) :
    SameReceiveSide s u where
  cfg := h'.cfg.trans h.cfg
  slots := h'.slots.trans h.slots
  txBound := h'.txBound.trans h.txBound
  rxBound := h'.rxBound.trans h.rxBound
  rPhase := h'.rPhase.trans h.rPhase
  recvOp := h'.recvOp.trans h.recvOp
  fr := h'.fr.trans h.fr
  lockHeld := h'.lockHeld.trans h.lockHeld
  rxFifo := h'.rxFifo.trans h.rxFifo
  rxAnswers := h'.rxAnswers.trans h.rxAnswers
  rxDraws := h'.rxDraws.trans h.rxDraws
  hostQueue := h'.hostQueue.trans h.hostQueue
  script := h'.script.trans h.script
  eventDraws := h'.eventDraws.trans h.eventDraws

/-- `u` is the state of the operation begun in `s` after START and `k` data frames were sent, each answered ok, with
`rest` still to be answered: the loop invariant of spec/41_fragmenter.md R121 with the calls made so far. -/
structure SentFrames (op : SendOp) (s : State) (k : Nat) (rest : List TxAnswer) (u : State) : Prop where
  same : SameReceiveSide s u
  phase : u.fPhase = if maxFramePayload * k < op.length.toNat then .data else .finish
  seq : u.fSeq = BitVec.ofNat 8 k
  off : u.fOff.toNat = min (maxFramePayload * k) op.length.toNat
  chk : u.fChk = checksum8 s.cfg.checksum (chkInit s.cfg.checksum)
    (op.payload.take (min (maxFramePayload * k) op.length.toNat))
  param : u.fParam = op.param
  results : u.results = s.results
  calls : u.txCalls = s.txCalls ++ (framesBeforeEnd s.cfg op k).map (⟨·, .ok⟩)
  answers : u.txAnswers = rest

/-- EMIT_START of the accepted operation. -/
theorem sentFrames_zero (op : SendOp) {s : State} {rest : List TxAnswer} (hp : s.fPhase = .idle)
    (ha : s.txAnswers = .ok :: rest) :
    ∃ u, exec (.sendPacket op) { s with sendOp := some op } = .next u ∧ SentFrames op s 0 rest u := by
  have hok : ({ s with sendOp := some op } : State).nextTxAnswer = .ok := State.nextTxAnswer_of_cons ha
  have hexec := (exec_sendPacket_held op op { s with sendOp := some op } hp rfl).trans (emitStart_of_ok hok op)
  refine ⟨_, hexec, ?_⟩
  exact {
    same := by constructor <;> rfl
    phase := rfl
    seq := rfl
    off := by simp
    chk := by simp
    param := rfl
    results := rfl
    calls := by rw [← hok]; rfl
    answers := congrArg List.tail ha }

/-- The chunk at an offset continues the payload before it. -/
theorem take_append_chunkAt (op : SendOp) (off : Nat) :
    op.payload.take off ++ chunkAt op off = op.payload.take (off + chunkLen op.length.toNat off) :=
  List.take_add.symm

/-- EMIT_DATA (spec/41_fragmenter.md R113, R114): while bytes remain the next frame is sent, and the registers stand
one chunk further. -/
theorem SentFrames.emitData {op : SendOp} {s u : State} {k : Nat} {rest : List TxAnswer}
    (h : SentFrames op s k (.ok :: rest) u) (hk : maxFramePayload * k < op.length.toNat)
    (hL : op.length.toNat ≤ maxPacketPayload) :
    ∃ v, exec (.sendPacket op) u = .next v ∧ SentFrames op s (k + 1) rest v := by
  have hok : u.nextTxAnswer = .ok := State.nextTxAnswer_of_cons h.answers
  have hoff : u.fOff.toNat = maxFramePayload * k := h.off.trans (Nat.min_eq_left hk.le)
  have hnext : maxFramePayload * k + chunkLen op.length.toNat (maxFramePayload * k) =
      min (maxFramePayload * (k + 1)) op.length.toNat := by
    simp only [chunkLen, maxFramePayload] at hk ⊢
    omega
  have hexec := exec_sendPacket_data op (h.phase.trans (if_pos hk)) (hoff ▸ hk) hok
  refine ⟨_, hexec, ?_⟩
  exact {
    same := h.same.trans (sameReceiveSide_of_exec_sendPacket hexec)
    phase := by
      rw [State.afterData_fPhase, State.transmit_fOff, hoff, hnext]
      exact if_congr (by simp) rfl rfl
    seq := by
      rw [State.afterData_fSeq, State.transmit_fSeq, h.seq, BitVec.ofNat_add]
      rfl
    off := by
      rw [State.afterData_fOff, State.transmit_fOff, hoff, BitVec.toNat_add, hoff, BitVec.toNat_ofNat, ← hnext]
      simp only [chunkLen, maxFramePayload, maxPacketPayload] at hk hL ⊢
      omega
    chk := by
      rw [State.afterData_fChk, State.transmit_fChk, State.transmit_fOff, State.transmit_cfg, hoff, h.same.cfg, h.chk,
        Nat.min_eq_left hk.le, ← checksum8_append, take_append_chunkAt, hnext]
    param := h.param
    results := h.results
    calls := by
      rw [State.afterData_txCalls, State.transmit_txCalls, h.calls, hok, h.same.cfg, h.seq, hoff, framesBeforeEnd_succ,
        List.map_append, List.append_assoc]
      rfl
    answers := by
      rw [State.afterData_txAnswers, State.transmit_txAnswers, h.answers, List.tail_cons] }

theorem SentFrames.sendBusy {op : SendOp} {s u : State} {k : Nat} {rest : List TxAnswer}
    (h : SentFrames op s k rest u) : u.sendBusy = true := by
  apply State.sendBusy_of_fPhase
  rw [h.phase]
  split <;> decide

theorem ceil8_le_of_fits {op : SendOp} (h : op.length.toNat ≤ maxPacketPayload) : ceil8 op.length.toNat ≤ 32 := by
  simp only [ceil8, maxPacketPayload] at h ⊢
  omega

/-- The operation reaches the state after START and `k` data frames, in `k + 1` of the steps `callSend` allows. -/
theorem callSend_reaches_sentFrames {op : SendOp} {s : State} (h : ReadyToSend op s) {k : Nat}
    (hk : k ≤ ceil8 op.length.toNat) {rest : List TxAnswer}
    (ha : s.txAnswers = List.replicate (k + 1) .ok ++ rest) :
    ∃ u, SentFrames op s k rest u ∧ ∀ fuel, maxSendSteps = fuel + (k + 1) →
      callSend op s = continueCall State.sendBusy (.sendPacket op) fuel u := by
  induction k generalizing rest with
  | zero =>
    obtain ⟨u, hexec, hu⟩ := sentFrames_zero op h.phase ha
    refine ⟨u, hu, fun fuel hfuel => ?_⟩
    rw [callSend, h.exec, andThen_next, hfuel]
    exact continueCall_succ (State.sendBusy_of_sendOp rfl) hexec fuel
  | succ k ih =>
    rw [List.replicate_succ', List.append_assoc] at ha
    obtain ⟨u, hu, hcall⟩ := ih (by omega) ha
    have hlt : maxFramePayload * k < op.length.toNat := by
      simp only [ceil8, maxFramePayload] at hk ⊢
      omega
    obtain ⟨v, hexec, hv⟩ := hu.emitData hlt h.fits
    refine ⟨v, hv, fun fuel hfuel => ?_⟩
    rw [hcall (fuel + 1) (by omega), continueCall_succ hu.sendBusy hexec]

/-- EMIT_END (spec/41_fragmenter.md R115): after all `ceil8` data frames the registers hold the END frame's count,
checksum and saved parameter, and its acceptance ends the operation. -/
theorem SentFrames.emitEnd {op : SendOp} {s u : State} {rest : List TxAnswer}
    (h : SentFrames op s (ceil8 op.length.toNat) (.ok :: rest) u) :
    exec (.sendPacket op) u = .next ((u.transmit (lastFrame s.cfg op)).finishSend .ok) := by
  have hall : op.length.toNat ≤ maxFramePayload * ceil8 op.length.toNat := by
    simp only [ceil8, maxFramePayload]
    omega
  have hbytes : endBytes u.cfg op u.fSeq u.fChk u.fParam = lastFrame s.cfg op := by
    rw [h.same.cfg, h.seq, h.chk, h.param, Nat.min_eq_right hall, lastFrame]
  rw [exec_sendPacket_finish op (h.phase.trans (if_neg (Nat.not_lt.2 hall))) (State.nextTxAnswer_of_cons h.answers),
    hbytes]

/-- A whole SEND_PACKET with every call answered ok: from the state after the last data frame, END. -/
theorem callSend_of_answers_ok {op : SendOp} {s : State} (h : ReadyToSend op s) {rest : List TxAnswer}
    (ha : s.txAnswers = List.replicate (ceil8 op.length.toNat + 2) .ok ++ rest) :
    ∃ u, SentFrames op s (ceil8 op.length.toNat) (.ok :: rest) u ∧
      callSend op s = .next ((u.transmit (lastFrame s.cfg op)).finishSend .ok) := by
  rw [List.replicate_succ', List.append_assoc] at ha
  obtain ⟨u, hu, hcall⟩ := callSend_reaches_sentFrames h le_rfl ha
  have hn := ceil8_le_of_fits h.fits
  have hfuel : maxSendSteps = 32 - ceil8 op.length.toNat + 1 + (ceil8 op.length.toNat + 1) := by
    simp only [maxSendSteps]
    omega
  refine ⟨u, hu, ?_⟩
  rw [hcall _ hfuel, continueCall_succ hu.sendBusy hu.emitEnd]
  exact continueCall_of_not_busy (State.sendBusy_eq_false.2 ⟨rfl, rfl⟩) _ _

/-- Calls answered ok are logged with their bytes (spec/10_state.md R34). -/
theorem txLog_of_txCalls {s t : State} {frames : List (List Byte)}
    (h : t.txCalls = s.txCalls ++ frames.map (⟨·, .ok⟩)) : t.txLog = s.txLog ++ frames := by
  simp [State.txLog, h, List.filter_map, Function.comp_def]

/-- What a whole SEND_PACKET with every call answered ok delivers and puts on the wire. -/
theorem callSend_txLog_of_answers_ok {op : SendOp} {s : State} (h : ReadyToSend op s) {rest : List TxAnswer}
    (ha : s.txAnswers = List.replicate (ceil8 op.length.toNat + 2) .ok ++ rest) :
    ∃ t, callSend op s = .next t ∧ t.results = s.results ++ [⟨.send, .ok, none⟩] ∧
      t.txLog = s.txLog ++ (framesBeforeEnd s.cfg op (ceil8 op.length.toNat) ++ [lastFrame s.cfg op]) := by
  obtain ⟨u, hu, hcall⟩ := callSend_of_answers_ok h ha
  refine ⟨_, hcall, ?_, txLog_of_txCalls ?_⟩
  · rw [State.finishSend_results, State.transmit_results, hu.results]
  · rw [State.finishSend_txCalls, State.transmit_txCalls, hu.calls, State.nextTxAnswer_of_cons hu.answers,
      List.map_append, List.append_assoc]
    rfl

/-- Settles O29: with no data frame, START and END are all, and the checksum is that of no byte. -/
theorem emptyPacketIsTwoFrames : Obligations.EmptyPacketIsTwoFrames := by
  intro op s rest hp ho hb hl ha
  have hzero : op.length.toNat = 0 := by rw [hl]; rfl
  have hready : ReadyToSend op s := ⟨hp, ho, hb, by rw [hzero]; exact Nat.zero_le _⟩
  have hn : ceil8 op.length.toNat = 0 := by rw [hzero]; rfl
  obtain ⟨t, hcall, hres, hlog⟩ := callSend_txLog_of_answers_ok hready (rest := rest) (by rw [hn]; exact ha)
  refine ⟨t, hcall, hres, ?_⟩
  rw [hlog, lastFrame, hn, hzero]
  rfl

/-- Settles O28: the data frames of the packet's frames are counted by role, and END, the last of them, reports
`ceil8` of the length, which its byte can hold. -/
theorem frameCountLaw : Obligations.FrameCountLaw := by
  intro op s rest hlegal hp ho hb hL _ ha
  have hn : ceil8 op.length.toNat ≤ 32 := ceil8_le_of_fits hL
  obtain ⟨t, hcall, -, hlog⟩ := callSend_txLog_of_answers_ok ⟨hp, ho, hb, hL⟩ ha
  refine ⟨t, hcall, ?_, hn, lastFrame s.cfg op, ?_, headerParam_lastFrame s.cfg op, ?_⟩
  · have hcount : (framesBeforeEnd s.cfg op (ceil8 op.length.toNat) ++ [lastFrame s.cfg op]).countP (isData s.cfg) =
        ceil8 op.length.toNat := by
      rw [List.countP_append, countP_isData_framesBeforeEnd hlegal op hn, List.countP_singleton,
        isData_lastFrame hlegal]
      rfl
    rw [hlog, List.drop_left, ← List.countP_eq_length_filter]
    exact hcount
  · rw [hlog, List.drop_left, List.getLast?_concat]
  · rw [lastFrame_count, BitVec.toNat_ofNat, Nat.mod_eq_of_lt (by omega)]
    rfl

end Sys2Proof.Machine

/-! PROOFS. A data frame for the slot that assembles its stream: aborted on overflow, else accepted
(spec/43_slot_controller.md R145 to R147). -/

namespace Sys2Proof.Machine

/-- The slot table after step C moved the resolved slot. -/
theorem State.slot_afterFrame_set {s : State} {i : Nat} (hi : i < s.slots.length) (sl : Slot) (kind : ResultKind)
    (packet : Option Packet) (j : Nat) :
    (s.afterFrame (s.slots.set i sl) kind packet).slot j = if i = j then sl else s.slot j :=
  s.slot_setSlot i j sl hi

/-- A move that keeps the buffer of the resolved slot stores no byte of any slot. -/
theorem State.readByte_afterFrame_set {s : State} {i : Nat} (hi : i < s.slots.length) {sl : Slot}
    (hbuf : sl.buf = (s.slot i).buf) (kind : ResultKind) (packet : Option Packet) (j a : Nat) :
    (s.afterFrame (s.slots.set i sl) kind packet).readByte j a = s.readByte j a := by
  rw [State.readByte, State.slot_afterFrame_set hi]
  split
  next hij => rw [hbuf, hij, State.readByte]
  next => rfl

theorem Slot.abort_inProgress (sl : Slot) : sl.abort.inProgress = false := rfl

/-- The overflow branch of ON_DATA (R146): SLOT_ABORT and `InvalidFormat`. -/
theorem exec_dataFrame_overflow (seq : Byte) {f : Fields} (payload : List Byte) {s : State} {i : Nat}
    (hl : s.lockHeld = false) (hr : resolve s.slots f.fn = some i) (ha : (s.slot i).assembles f.fn = true)
    (ho : wouldOverflow (s.slot i).accLen f.len = true) :
    exec (.dataFrame seq f payload) s =
      .next (s.afterFrame (s.slots.set i (s.slot i).abort) .invalidFormat none) := by
  rw [exec_dataFrame_some seq f payload s i hl hr, if_neg (by simp [ha]), if_pos ho]

/-- The append branch of ON_DATA (R145): SLOT_APPEND and `InProgress`. -/
theorem exec_dataFrame_append (seq : Byte) {f : Fields} (payload : List Byte) {s : State} {i : Nat}
    (hl : s.lockHeld = false) (hr : resolve s.slots f.fn = some i) (ha : (s.slot i).assembles f.fn = true)
    (ho : wouldOverflow (s.slot i).accLen f.len = false) :
    exec (.dataFrame seq f payload) s = .next (s.afterFrame (s.slots.set i { s.slot i with
      buf := writeBytes (s.slot i).buf (s.slot i).accLen.toNat (payload.take f.len.toNat)
      accLen := (s.slot i).accLen + f.len.setWidth 9 }) .inProgress none) := by
  rw [exec_dataFrame_some seq f payload s i hl hr, if_neg (by simp [ha]),
    if_neg (by simp [ho])]

/-- Settles O45: the overflow test decides between abort, which keeps the buffer, and append, whose new length does
not wrap; either way the table changes at the resolved slot only. -/
theorem overflowAbortsTheSlot : Obligations.OverflowAbortsTheSlot := by
  intro seq f payload s i hl hr ha
  obtain ⟨hi, -⟩ := resolve_eq_some hr
  refine ⟨fun hover => ?_, fun hfits => ?_⟩
  · have hexec := exec_dataFrame_overflow seq payload hl hr ha (wouldOverflow_eq_true.2 hover)
    refine ⟨_, hexec, rfl, ?_, fun j hj => ?_, State.readByte_afterFrame_set hi (Slot.abort_buf _) _ _⟩
    · rw [State.slot_afterFrame_set hi, if_pos rfl, Slot.abort_inProgress]
    · rw [State.slot_afterFrame_set hi, if_neg hj.symm]
  · have hroom : wouldOverflow (s.slot i).accLen f.len = false := wouldOverflow_eq_false.2 hfits
    refine ⟨_, exec_dataFrame_append seq payload hl hr ha hroom, rfl, ?_, ?_⟩
    · rw [State.slot_afterFrame_set hi, if_pos rfl]
      exact (Slot.assembles_eq_true.1 ha).1
    · rw [State.slot_afterFrame_set hi, if_pos rfl]
      exact append_accLen_toNat _ _ hroom

end Sys2Proof.Machine

/-! PROOFS. A data frame of a stream that no slot assembles (spec/44_reassembler.md R171). -/

namespace Sys2Proof.Machine

/-- Where no slot assembles the stream, a slot that is idle is enough for RESOLVE to answer one. -/
theorem resolve_isSome_of_idle {slots : List Slot} {sl : Slot} (h : sl ∈ slots) (hidle : sl.inProgress = false)
    (fn : Addr) : ∃ i, resolve slots fn = some i := by
  cases hr : resolve slots fn with
  | some i => exact ⟨i, rfl⟩
  | none =>
    obtain ⟨hbusy, -⟩ := resolve_eq_none.1 hr sl h
    exact absurd (hidle.symm.trans hbusy) (by decide)

/-- Settles O44: with a slot idle RESOLVE answers one that does not assemble the stream, and ON_DATA ignores the frame;
with none idle it answers none. -/
theorem strayDataIsIgnored : Obligations.StrayDataIsIgnored := by
  intro seq f payload s hl hstray
  refine ⟨fun ⟨sl, hsl, hidle⟩ => ?_, fun hbusy => ?_⟩
  · obtain ⟨i, hr⟩ := resolve_isSome_of_idle hsl hidle f.fn
    obtain ⟨hi, -⟩ := resolve_eq_some hr
    rw [exec_dataFrame_some seq f payload s i hl hr, if_pos (hstray _ (s.slot_mem i hi))]
    rfl
  · exact underLock_none f.fn (onData f payload) s hl
      (resolve_eq_none.2 fun sl hsl => ⟨hbusy sl hsl, hstray sl hsl⟩)

end Sys2Proof.Machine

/-! PROOFS. RECEIVE_ONE_FRAME step by step: what each step answers, and the bytes it takes off the FIFO
(spec/44_reassembler.md R161, R162, spec/42_frame_parser.md R130 to R134). -/

namespace Sys2Proof.Machine

/-- `u` is `s` with `n` bytes less in the FIFO and the rest of what an invocation is about untouched: the slot table,
the lock, the delivered results. -/
structure Consumed (s : State) (n : Nat) (u : State) : Prop where
  slots : u.slots = s.slots
  lockHeld : u.lockHeld = s.lockHeld
  results : u.results = s.results
  rxFifo : u.rxFifo = s.rxFifo.drop n

theorem Consumed.trans {s u v : State} {m n : Nat} (h : Consumed s m u) (h' : Consumed u n v) :
    Consumed s (m + n) v where
  slots := h'.slots.trans h.slots
  lockHeld := h'.lockHeld.trans h.lockHeld
  results := h'.results.trans h.results
  rxFifo := by rw [h'.rxFifo, h.rxFifo, List.drop_drop]

/-- A failed `ReceiveExact` takes no byte (spec/20_memory.md R52). -/
theorem consumed_afterReceive_of_none {s : State} {n : Nat} (h : s.received n = none) :
    Consumed s 0 (s.afterReceive n) :=
  ⟨rfl, rfl, rfl, by rw [State.afterReceive_rxFifo, if_pos h, List.drop_zero]⟩

theorem State.received_of_serve {s : State} {n : Nat} (ha : s.nextRxAnswer = .serve) (hn : n ≤ s.rxFifo.length) :
    s.received n = some (s.rxFifo.take n) := if_pos ⟨ha, hn⟩

theorem State.nextRxAnswer_of_cons {s : State} {a : RxAnswer} {rest : List RxAnswer} (h : s.rxAnswers = a :: rest) :
    s.nextRxAnswer = a := by
  rw [State.nextRxAnswer, h]

section Steps
variable {s : State} (a : Addr)

theorem exec_receive_unbound (hp : s.rPhase = .idle) (hb : s.rxBound = false) :
    exec (.receiveOneFrame a) s = .next (s.finishReceive .notInitialized none) := by
  simp [exec, execReceiveOneFrame, hp, acceptReceive, hb]

theorem exec_receive_bound (hp : s.rPhase = .idle) (hb : s.rxBound = true) :
    ∃ u, exec (.receiveOneFrame a) s = .next u ∧ Consumed s 0 u ∧ u.rPhase = .header ∧ u.rxAnswers = s.rxAnswers := by
  have hexec : exec (.receiveOneFrame a) s = .next { s with recvOp := some a, rPhase := .header } := by
    simp [exec, execReceiveOneFrame, hp, acceptReceive, hb]
  exact ⟨_, hexec, ⟨rfl, rfl, rfl, List.drop_zero.symm⟩, rfl, rfl⟩

theorem exec_receive_header_none (hp : s.rPhase = .header) (h : s.received headerBytes = none) :
    exec (.receiveOneFrame a) s = .next ((s.afterReceive headerBytes).finishReceive .noData none) := by
  simp [exec, execReceiveOneFrame, hp, fetchHeader, h]

theorem exec_receive_header_served (hp : s.rPhase = .header)
    (h : s.received headerBytes = some (s.rxFifo.take headerBytes)) :
    ∃ u, exec (.receiveOneFrame a) s = .next u ∧ Consumed s headerBytes u ∧ u.rPhase = .payload ∧
      u.fr.fields = headerFields (s.rxFifo.take headerBytes) ∧ u.rxAnswers = s.rxAnswers.tail := by
  have hexec : exec (.receiveOneFrame a) s = .next { s.afterReceive headerBytes with
      fr := { s.fr with
        param := headerParam (s.rxFifo.take headerBytes), fields := headerFields (s.rxFifo.take headerBytes) }
      rPhase := .payload } := by
    simp [exec, execReceiveOneFrame, hp, fetchHeader, h]
  have hfifo : (s.afterReceive headerBytes).rxFifo = s.rxFifo.drop headerBytes := by simp [h]
  exact ⟨_, hexec, ⟨rfl, rfl, rfl, hfifo⟩, rfl, rfl, rfl⟩

theorem exec_receive_malformed (hp : s.rPhase = .payload) (hlen : maxFramePayload < s.fr.fields.len.toNat) :
    exec (.receiveOneFrame a) s = .next (s.finishReceive .malformedHeader none) := by
  simp [exec, execReceiveOneFrame, hp, fetchPayload, hlen, execReservedLen]

theorem exec_receive_payload_none (hp : s.rPhase = .payload) (hlen : s.fr.fields.len.toNat ≤ maxFramePayload)
    (h0 : s.fr.fields.len.toNat ≠ 0) (h : s.received s.fr.fields.len.toNat = none) :
    exec (.receiveOneFrame a) s = .next ((s.afterReceive s.fr.fields.len.toNat).finishReceive .noData none) := by
  simp only [exec, execReceiveOneFrame, hp, fetchPayload]
  rw [if_neg (Nat.not_lt.2 hlen), if_neg h0, h]

/-- Length 0 makes no read (spec/42_frame_parser.md R131), and a read that is made is served: the payload is taken. -/
theorem exec_receive_payload_fetched (hp : s.rPhase = .payload) (hlen : s.fr.fields.len.toNat ≤ maxFramePayload)
    (h : ¬(s.fr.fields.len.toNat ≠ 0 ∧ s.received s.fr.fields.len.toNat = none)) :
    ∃ u, exec (.receiveOneFrame a) s = .next u ∧ Consumed s s.fr.fields.len.toNat u ∧ u.rPhase = .filter ∧
      u.fr.fields = s.fr.fields := by
  by_cases h0 : s.fr.fields.len.toNat = 0
  · have hexec : exec (.receiveOneFrame a) s =
        .next { s with fr := { s.fr with payload := [] }, rPhase := .filter } := by
      simp [exec, execReceiveOneFrame, hp, fetchPayload, h0]
    exact ⟨_, hexec, ⟨rfl, rfl, rfl, by rw [h0, List.drop_zero]⟩, rfl, rfl⟩
  · rcases received_cases s s.fr.fields.len.toNat with ⟨-, -, hsome, hfifo⟩ | ⟨-, hnone, -⟩
    · have hexec : exec (.receiveOneFrame a) s = .next { s.afterReceive s.fr.fields.len.toNat with
          fr := { s.fr with payload := s.rxFifo.take s.fr.fields.len.toNat }, rPhase := .filter } := by
        simp only [exec, execReceiveOneFrame, hp, fetchPayload]
        rw [if_neg (Nat.not_lt.2 hlen), if_neg h0, hsome]
      exact ⟨_, hexec, ⟨rfl, rfl, rfl, hfifo⟩, rfl, rfl⟩
    · exact absurd ⟨h0, hnone⟩ h

theorem exec_receive_foreign (hp : s.rPhase = .filter) (hdst : s.fr.fields.dst ≠ a) :
    exec (.receiveOneFrame a) s = .next (s.finishReceive .invalidAddress none) := by
  simp [exec, execReceiveOneFrame, hp, filterFrame, hdst]

theorem exec_receive_own (hp : s.rPhase = .filter) (hdst : s.fr.fields.dst = a) :
    exec (.receiveOneFrame a) s = .next { s with rPhase := .dispatch } := by
  simp [exec, execReceiveOneFrame, hp, filterFrame, hdst]

theorem exec_receive_dispatch (hp : s.rPhase = .dispatch) :
    exec (.receiveOneFrame a) s = exec (frameInstr s.cfg s.fr) s := by
  rw [exec_frameInstr]
  simp [exec, execReceiveOneFrame, hp]

end Steps

/-! The invocation as the run of its steps. -/

/-- The invocation in progress, with `fuel` steps left. -/
abbrev continueReceive (a : Addr) (fuel : Nat) (s : State) : Outcome :=
  continueCall State.receiveBusy (.receiveOneFrame a) fuel s

theorem State.receiveBusy_of_rPhase {s : State} (h : s.rPhase ≠ .idle) : s.receiveBusy = true := decide_eq_true h

theorem callReceive_of_exec {a : Addr} {s u : State} (h : exec (.receiveOneFrame a) s = .next u) :
    callReceive a s = continueReceive a maxReceiveSteps u := by
  rw [callReceive, h, andThen_next]

theorem continueReceive_of_exec {a : Addr} {s u : State} (hp : s.rPhase ≠ .idle)
    (h : exec (.receiveOneFrame a) s = .next u) (fuel : Nat) :
    continueReceive a (fuel + 1) s = continueReceive a fuel u :=
  continueCall_succ (State.receiveBusy_of_rPhase hp) h fuel

theorem continueReceive_of_idle {s : State} (h : s.rPhase = .idle) (a : Addr) (fuel : Nat) :
    continueReceive a fuel s = .next s :=
  continueCall_of_not_busy (State.receiveBusy_eq_false.2 h) _ fuel

/-- A step that delivers the result ends the invocation. -/
theorem continueReceive_of_finish {a : Addr} {s u : State} (hp : s.rPhase ≠ .idle) {kind : ResultKind}
    {packet : Option Packet} (h : exec (.receiveOneFrame a) s = .next (u.finishReceive kind packet)) (fuel : Nat) :
    continueReceive a (fuel + 1) s = .next (u.finishReceive kind packet) :=
  (continueReceive_of_exec hp h fuel).trans (continueReceive_of_idle rfl a fuel)

end Sys2Proof.Machine

/-! PROOFS. A frame for another node (spec/44_reassembler.md R162). -/

namespace Sys2Proof

/-- A frame of a legal length that decodes is pending whole, and the bytes after it are what the decoder leaves. -/
theorem decodeFrame_eq_ok_of_legal {p : Params} {bytes rest : List Byte} {i : Instr}
    (h : decodeFrame p bytes = .ok (i, rest))
    (hlen : (headerFields (bytes.take headerBytes)).len.toNat ≤ maxFramePayload) :
    headerBytes ≤ bytes.length ∧
      (headerFields (bytes.take headerBytes)).len.toNat ≤ (bytes.drop headerBytes).length ∧
      rest = bytes.drop (headerBytes + (headerFields (bytes.take headerBytes)).len.toNat) := by
  simp only [decodeFrame] at h
  split at h
  next => cases h
  next hheader =>
    rw [if_neg (Nat.not_lt.2 hlen)] at h
    split at h
    next => cases h
    next hpayload =>
      injection h with h
      injection h with _ h
      exact ⟨Nat.not_lt.1 hheader, Nat.not_lt.1 hpayload, by rw [← h, List.drop_drop]⟩

end Sys2Proof

namespace Sys2Proof.Machine

/-- Step A of an invocation on a bound block with a whole frame of a legal length pending and both reads served: the
frame is taken off the FIFO, and the filter is next. -/
theorem callReceive_reaches_filter {a : Addr} {s : State} {f : Fields} {more : List RxAnswer}
    (hp : s.rPhase = .idle) (hb : s.rxBound = true) (ha : s.rxAnswers = .serve :: .serve :: more)
    (hf : headerFields (s.rxFifo.take headerBytes) = f) (hlen : f.len.toNat ≤ maxFramePayload)
    (hheader : headerBytes ≤ s.rxFifo.length) (hpayload : f.len.toNat ≤ (s.rxFifo.drop headerBytes).length) :
    ∃ u, callReceive a s = continueReceive a 2 u ∧ Consumed s (headerBytes + f.len.toNat) u ∧ u.rPhase = .filter ∧
      u.fr.fields = f := by
  obtain ⟨u, hbegin, hcons, hu, hanswers⟩ := exec_receive_bound a hp hb
  have hfifo : u.rxFifo = s.rxFifo := hcons.rxFifo
  have hserve : u.nextRxAnswer = .serve := State.nextRxAnswer_of_cons (hanswers.trans ha)
  obtain ⟨v, hfetch, hcons', hv, hfields, hanswers'⟩ := exec_receive_header_served a hu
    (State.received_of_serve hserve (by rw [hfifo]; exact hheader))
  rw [hfifo, hf] at hfields
  have hfifo' : v.rxFifo = s.rxFifo.drop headerBytes := by rw [hcons'.rxFifo, hfifo]
  have hserve' : v.nextRxAnswer = .serve :=
    State.nextRxAnswer_of_cons (by rw [hanswers', hanswers, ha, List.tail_cons])
  have hread : v.received f.len.toNat = some (v.rxFifo.take f.len.toNat) :=
    State.received_of_serve hserve' (by rw [hfifo']; exact hpayload)
  obtain ⟨w, hfetch', hcons'', hw, hfields'⟩ := exec_receive_payload_fetched a hv (by rw [hfields]; exact hlen)
    (by rw [hfields, hread]; simp)
  rw [hfields] at hcons'' hfields'
  refine ⟨w, ?_, Nat.zero_add headerBytes ▸ (hcons.trans hcons').trans hcons'', hw, hfields'⟩
  rw [callReceive_of_exec hbegin, maxReceiveSteps, continueReceive_of_exec (by rw [hu]; decide) hfetch,
    continueReceive_of_exec (by rw [hv]; decide) hfetch']

/-- Settles O36: the fetch takes the whole frame and the filter answers, before any slot or the lock is looked at. -/
theorem filterDropsForeignFrames : Obligations.FilterDropsForeignFrames := by
  refine ⟨fun a s i rest more f hp hb ha hdec hf hlen hdst => ?_, fun a s hp hdst => exec_receive_own a hp hdst⟩
  subst hf
  obtain ⟨hheader, hpayload, hrest⟩ := decodeFrame_eq_ok_of_legal hdec hlen
  obtain ⟨u, hcall, hcons, hu, hfields⟩ := callReceive_reaches_filter (a := a) hp hb ha rfl hlen hheader hpayload
  have hforeign := exec_receive_foreign a hu (by rw [hfields]; exact hdst)
  have hend := continueReceive_of_finish (by rw [hu]; decide) hforeign 1
  refine ⟨_, hcall.trans hend, ?_, hcons.slots, hcons.rxFifo.trans hrest.symm, hcons.lockHeld, rfl⟩
  rw [State.finishReceive_results, hcons.results]
  rfl

end Sys2Proof.Machine

/-! PROOFS. What step C answers: the result of a frame that was fetched whole (spec/44_reassembler.md R161 to
R171). -/

namespace Sys2Proof.Machine

/-- A result of a RECEIVE_ONE_FRAME: a packet comes with `ok` only (spec/44_reassembler.md R160). -/
structure IsReceiveResult (r : HostResult) : Prop where
  op : r.op = .receive
  packet : r.packet.isSome = true → r.kind = .ok

theorem isReceiveResult_receiveResult (kind : ResultKind) : IsReceiveResult (receiveResult kind) :=
  ⟨rfl, fun h => nomatch h⟩

/-- The kinds that answer a whole frame: all but the three that end an invocation before it has one. -/
abbrev ResultKind.ofWholeFrame (k : ResultKind) : Prop :=
  k ≠ .notInitialized ∧ k ≠ .noData ∧ k ≠ .malformedHeader

/-- `t` is `s` with one result more, and that one answers a whole frame. -/
def AnswersFrame (s t : State) : Prop :=
  ∃ r, t.results = s.results ++ [r] ∧ IsReceiveResult r ∧ r.kind.ofWholeFrame

theorem answersFrame_of_receiveResult {s t : State} {kind : ResultKind} (hk : kind.ofWholeFrame)
    (h : t.results = s.results ++ [receiveResult kind]) : AnswersFrame s t :=
  ⟨_, h, isReceiveResult_receiveResult kind, hk⟩

theorem onStart_answersFrame {f : Fields} {i : Nat} {s t : State} (h : onStart f i s = .next t) :
    AnswersFrame s t := by
  obtain rfl := Host.Outcome.next.inj h
  exact answersFrame_of_receiveResult (kind := .inProgress) (by decide) rfl

theorem abortWith_answersFrame {kind : ResultKind} (hk : kind.ofWholeFrame) {i : Nat} {s t : State}
    (h : abortWith kind i s = .next t) : AnswersFrame s t := by
  obtain rfl := Host.Outcome.next.inj h
  exact answersFrame_of_receiveResult hk rfl

theorem onData_answersFrame {f : Fields} {payload : List Byte} {i : Nat} {s t : State}
    (h : onData f payload i s = .next t) : AnswersFrame s t := by
  rcases onData_cases f payload i s with ⟨-, hignored⟩ | ⟨-, -, hoverflow⟩ | ⟨-, -, happend⟩
  · obtain rfl := Host.Outcome.next.inj (hignored.symm.trans h)
    exact answersFrame_of_receiveResult (kind := .inProgress) (by decide) rfl
  · exact abortWith_answersFrame (by decide) (hoverflow.symm.trans h)
  · obtain rfl := Host.Outcome.next.inj (happend.symm.trans h)
    exact answersFrame_of_receiveResult (kind := .inProgress) (by decide) rfl

/-- Only completion delivers a packet, with `ok`. -/
theorem onEnd_answersFrame {f : Fields} {payload : List Byte} {i : Nat} {s t : State}
    (h : onEnd f payload i s = .next t) : AnswersFrame s t := by
  rcases onEnd_cases f payload i s with ⟨-, hidle⟩ | ⟨-, -, hformat⟩ | ⟨-, r, -, hfault⟩ |
    ⟨-, bytes, -, ⟨-, hcrc⟩ | ⟨-, hcomplete⟩⟩
  · obtain rfl := Host.Outcome.next.inj (hidle.symm.trans h)
    exact answersFrame_of_receiveResult (kind := .invalidFormat) (by decide) rfl
  · exact abortWith_answersFrame (by decide) (hformat.symm.trans h)
  · cases hfault.symm.trans h
  · exact abortWith_answersFrame (by decide) (hcrc.symm.trans h)
  · obtain rfl := Host.Outcome.next.inj (hcomplete.symm.trans h)
    exact ⟨_, rfl, ⟨rfl, fun _ => rfl⟩, (by decide : ResultKind.ok.ofWholeFrame)⟩

/-- The resolution under a free lock answers the frame if the role's branch does. -/
theorem underLock_resolveThen_answersFrame {fn : Addr} {branch : Nat → State → Outcome} {s t : State}
    (hl : s.lockHeld = false) (hbranch : ∀ i u v, branch i u = .next v → AnswersFrame u v)
    (h : underLock (resolveThen fn branch) s = .next t) : AnswersFrame s t := by
  cases hr : resolve s.slots fn with
  | none =>
    obtain rfl := Host.Outcome.next.inj ((underLock_none fn branch s hl hr).symm.trans h)
    exact answersFrame_of_receiveResult (kind := .noFreeSlot) (by decide) rfl
  | some i =>
    rw [underLock_some fn branch s i hl hr] at h
    obtain ⟨u, hu, hrelease⟩ := andThen_eq_next.1 h
    obtain rfl := Host.Outcome.next.inj hrelease
    exact hbranch i s.acquire u hu

/-- Step C with the lock free, whatever the role of the frame in the frame register. -/
theorem exec_frameInstr_answersFrame {s t : State} (hl : s.lockHeld = false)
    (hlen : s.fr.fields.len.toNat ≤ maxFramePayload) (h : exec (frameInstr s.cfg s.fr) s = .next t) :
    AnswersFrame s t := by
  cases hrole : role s.cfg s.fr.param with
  | start =>
    rw [frameInstr_of_role_start hlen hrole] at h
    exact underLock_resolveThen_answersFrame hl (fun _ _ _ => onStart_answersFrame) h
  | finish =>
    rw [frameInstr_of_role_finish hlen hrole] at h
    exact underLock_resolveThen_answersFrame hl (fun _ _ _ => onEnd_answersFrame) h
  | data =>
    rw [frameInstr_of_role_data hlen hrole] at h
    exact underLock_resolveThen_answersFrame hl (fun _ _ _ => onData_answersFrame) h

end Sys2Proof.Machine

/-! PROOFS. A whole invocation takes at most one frame and moves at most one slot (spec/44_reassembler.md R173): how
it ends, read backwards from its last step. -/

namespace Sys2Proof.Machine

/-- A table move writes no slot but the resolved one. -/
theorem TableMove.resolve_of_slot_ne {fn : Addr} {s t : State} (h : TableMove fn s.slots t.slots) {j : Nat}
    (hj : t.slot j ≠ s.slot j) : resolve s.slots fn = some j := by
  rcases h with hsame | ⟨i, sl, hr, -, hset⟩
  · exact absurd (State.slot_congr hsame j) hj
  · obtain ⟨hi, -⟩ := resolve_eq_some hr
    have hslot : t.slot j = if i = j then sl else s.slot j :=
      (State.slot_congr (t := t) (s := s.setSlot i sl) hset j).trans (s.slot_setSlot i j sl hi)
    by_cases hij : i = j
    · exact hij ▸ hr
    · exact absurd (hslot.trans (if_neg hij)) hj

theorem TableMove.length_eq {fn : Addr} {slots slots' : List Slot} (h : TableMove fn slots slots') :
    slots'.length = slots.length := by
  rcases h with rfl | ⟨i, sl, -, -, rfl⟩
  · rfl
  · exact List.length_set

/-- The invocation that stands in `s` ends in `t`: `n` bytes more are taken, at most the slot resolved for `fn` is
moved, and the one result is `r`. -/
structure EndsWith (fn : Addr) (s : State) (n : Nat) (r : HostResult) (t : State) : Prop where
  table : TableMove fn s.slots t.slots
  rxFifo : t.rxFifo = s.rxFifo.drop n
  results : t.results = s.results ++ [r]
  isReceive : IsReceiveResult r

/-- What was taken before adds to what the rest of the invocation takes. -/
theorem Consumed.endsWith {fn : Addr} {s u t : State} {m n : Nat} {r : HostResult} (h : Consumed s m u)
    (h' : EndsWith fn u n r t) : EndsWith fn s (m + n) r t where
  table := h.slots ▸ h'.table
  rxFifo := by rw [h'.rxFifo, h.rxFifo, List.drop_drop]
  results := h.results ▸ h'.results
  isReceive := h'.isReceive

/-- An end before step C. -/
theorem Consumed.endsWith_finishReceive {s u : State} {n : Nat} (h : Consumed s n u) (fn : Addr) (kind : ResultKind) :
    EndsWith fn s n (receiveResult kind) (u.finishReceive kind none) where
  table := .inl h.slots
  rxFifo := h.rxFifo
  results := congrArg (· ++ [receiveResult kind]) h.results
  isReceive := isReceiveResult_receiveResult kind

theorem consumed_refl (s : State) : Consumed s 0 s := ⟨rfl, rfl, rfl, List.drop_zero.symm⟩

/-- Step C takes no byte. -/
theorem exec_frameInstr_endsWith {s t : State} (hl : s.lockHeld = false)
    (hlen : s.fr.fields.len.toNat ≤ maxFramePayload) (h : exec (frameInstr s.cfg s.fr) s = .next t) :
    ∃ r, EndsWith s.fr.fields.fn s 0 r t ∧ r.kind.ofWholeFrame := by
  obtain ⟨r, hresults, hr, hkind⟩ := exec_frameInstr_answersFrame hl hlen h
  rcases exec_frameInstr_next s t h with ⟨hheld, -⟩ | ⟨slots, kind, packet, rfl, htable⟩
  · exact absurd (hl.symm.trans hheld) (by decide)
  · exact ⟨r, ⟨htable.elim .inl And.right, List.drop_zero.symm, hresults, hr⟩, hkind⟩

theorem continueReceive_dispatch {a : Addr} {s t : State} (hp : s.rPhase = .dispatch) (hl : s.lockHeld = false)
    (hlen : s.fr.fields.len.toNat ≤ maxFramePayload) (h : continueReceive a 1 s = .next t) :
    ∃ r, EndsWith s.fr.fields.fn s 0 r t ∧ r.kind.ofWholeFrame := by
  rw [continueReceive, continueCall, if_pos (State.receiveBusy_of_rPhase (by rw [hp]; decide))] at h
  obtain ⟨u, hexec, hu⟩ := andThen_eq_next.1 h
  obtain rfl := Host.Outcome.next.inj hu
  rw [exec_receive_dispatch a hp] at hexec
  exact exec_frameInstr_endsWith hl hlen hexec

/-- From the filter on: a frame for another node is answered at once, one for this node by step C. -/
theorem continueReceive_filter {a : Addr} {s t : State} (hp : s.rPhase = .filter) (hl : s.lockHeld = false)
    (hlen : s.fr.fields.len.toNat ≤ maxFramePayload) (h : continueReceive a 2 s = .next t) :
    ∃ r, EndsWith s.fr.fields.fn s 0 r t ∧ r.kind.ofWholeFrame := by
  have hbusy : s.rPhase ≠ .idle := by rw [hp]; decide
  by_cases hdst : s.fr.fields.dst = a
  · rw [continueReceive_of_exec hbusy (exec_receive_own a hp hdst)] at h
    obtain ⟨r, hend, hkind⟩ := continueReceive_dispatch (s := { s with rPhase := .dispatch }) rfl hl hlen h
    exact ⟨r, ⟨hend.table, hend.rxFifo, hend.results, hend.isReceive⟩, hkind⟩
  · rw [continueReceive_of_finish hbusy (exec_receive_foreign a hp hdst)] at h
    obtain rfl := Host.Outcome.next.inj h
    exact ⟨_, (consumed_refl s).endsWith_finishReceive _ _, (by decide : ResultKind.invalidAddress.ofWholeFrame)⟩

/-- From the rest of the fetch on: no byte more for a malformed or a lost header (spec/42_frame_parser.md R132 case
(b), R134), else the declared payload. -/
theorem continueReceive_payload {a : Addr} {s t : State} (hp : s.rPhase = .payload) (hl : s.lockHeld = false)
    (h : continueReceive a 3 s = .next t) :
    ∃ r, EndsWith s.fr.fields.fn s 0 r t ∧ (r.kind = .malformedHeader ∨ r.kind = .noData) ∨
      EndsWith s.fr.fields.fn s s.fr.fields.len.toNat r t ∧ r.kind.ofWholeFrame := by
  have hbusy : s.rPhase ≠ .idle := by rw [hp]; decide
  by_cases hlen : s.fr.fields.len.toNat ≤ maxFramePayload
  · by_cases hread : s.fr.fields.len.toNat ≠ 0 ∧ s.received s.fr.fields.len.toNat = none
    · obtain ⟨h0, hnone⟩ := hread
      rw [continueReceive_of_finish hbusy (exec_receive_payload_none a hp hlen h0 hnone)] at h
      obtain rfl := Host.Outcome.next.inj h
      exact ⟨_, .inl ⟨(consumed_afterReceive_of_none hnone).endsWith_finishReceive _ _, .inr rfl⟩⟩
    · obtain ⟨u, hexec, hcons, hu, hfields⟩ := exec_receive_payload_fetched a hp hlen hread
      rw [continueReceive_of_exec hbusy hexec] at h
      obtain ⟨r, hend, hkind⟩ := continueReceive_filter hu (hcons.lockHeld.trans hl) (by rw [hfields]; exact hlen) h
      rw [hfields] at hend
      exact ⟨r, .inr ⟨hcons.endsWith hend, hkind⟩⟩
  · rw [continueReceive_of_finish hbusy (exec_receive_malformed a hp (Nat.not_le.1 hlen))] at h
    obtain rfl := Host.Outcome.next.inj h
    exact ⟨_, .inl ⟨(consumed_refl s).endsWith_finishReceive _ _, .inl rfl⟩⟩

/-- From the header read on: nothing, the header alone, or the whole frame is taken. -/
theorem continueReceive_header {a : Addr} {s t : State} {f : Fields} (hp : s.rPhase = .header)
    (hl : s.lockHeld = false) (hf : headerFields (s.rxFifo.take headerBytes) = f)
    (h : continueReceive a 4 s = .next t) :
    ∃ r, EndsWith f.fn s 0 r t ∧ r.kind = .noData ∨
      EndsWith f.fn s headerBytes r t ∧ (r.kind = .malformedHeader ∨ r.kind = .noData) ∨
      EndsWith f.fn s (headerBytes + f.len.toNat) r t ∧ r.kind.ofWholeFrame := by
  have hbusy : s.rPhase ≠ .idle := by rw [hp]; decide
  rcases received_cases s headerBytes with ⟨-, -, hsome, -⟩ | ⟨-, hnone, -⟩
  · obtain ⟨u, hexec, hcons, hu, hfields, -⟩ := exec_receive_header_served a hp hsome
    rw [continueReceive_of_exec hbusy hexec] at h
    obtain ⟨r, hend⟩ := continueReceive_payload hu (hcons.lockHeld.trans hl) h
    rw [hfields, hf] at hend
    exact ⟨r, .inr (hend.imp (And.imp_left hcons.endsWith) (And.imp_left hcons.endsWith))⟩
  · rw [continueReceive_of_finish hbusy (exec_receive_header_none a hp hnone)] at h
    obtain rfl := Host.Outcome.next.inj h
    exact ⟨_, .inl ⟨(consumed_afterReceive_of_none hnone).endsWith_finishReceive _ _, rfl⟩⟩

/-- A whole invocation with the lock free: what it takes off the FIFO, and the kinds of result that go with it. -/
theorem callReceive_endsWith {a : Addr} {s t : State} {f : Fields} (hp : s.rPhase = .idle) (hl : s.lockHeld = false)
    (hf : headerFields (s.rxFifo.take headerBytes) = f) (h : callReceive a s = .next t) :
    ∃ r, EndsWith f.fn s 0 r t ∧ (r.kind = .notInitialized ∨ r.kind = .noData) ∨
      EndsWith f.fn s headerBytes r t ∧ (r.kind = .malformedHeader ∨ r.kind = .noData) ∨
      EndsWith f.fn s (headerBytes + f.len.toNat) r t ∧ r.kind.ofWholeFrame := by
  cases hb : s.rxBound with
  | false =>
    rw [callReceive_of_exec (exec_receive_unbound a hp hb), continueReceive_of_idle rfl] at h
    obtain rfl := Host.Outcome.next.inj h
    exact ⟨_, .inl ⟨(consumed_refl s).endsWith_finishReceive _ _, .inl rfl⟩⟩
  | true =>
    obtain ⟨u, hexec, hcons, hu, -⟩ := exec_receive_bound a hp hb
    rw [callReceive_of_exec hexec] at h
    obtain ⟨r, hend⟩ := continueReceive_header hu (hcons.lockHeld.trans hl)
      (by rw [hcons.rxFifo, List.drop_zero, hf]) h
    have hadd {n : Nat} (hn : EndsWith f.fn u n r t) : EndsWith f.fn s n r t := Nat.zero_add n ▸ hcons.endsWith hn
    exact ⟨r, hend.imp (And.imp hadd .inr) (Or.imp (And.imp_left hadd) (And.imp_left hadd))⟩

/-- Settles O54: of the three ways an invocation ends each takes nothing, a header or a whole frame, and each moves the
table at the resolved slot at most. -/
theorem oneFrameOneSlotPerCall : Obligations.OneFrameOneSlotPerCall := by
  intro a s t hp hl h
  obtain ⟨r, hend⟩ := callReceive_endsWith hp hl rfl h
  obtain ⟨n, hn⟩ : ∃ n, EndsWith (headerFields (s.rxFifo.take 5)).fn s n r t := by
    rcases hend with ⟨hend, -⟩ | ⟨hend, -⟩ | ⟨hend, -⟩ <;> exact ⟨_, hend⟩
  refine ⟨fun j hj => hn.table.resolve_of_slot_ne hj, hn.table.length_eq, r, hn.results, hn.isReceive.op,
    hn.isReceive.packet, ?_⟩
  exact hend.imp (And.imp_left EndsWith.rxFifo) (Or.imp (And.imp_left EndsWith.rxFifo) (And.imp_left EndsWith.rxFifo))

end Sys2Proof.Machine

/-! PROOFS. The header layout is a bijection (spec/30_encoding.md section 4): each field sits in bits of its own of the
identifier word and the control byte, and the fields together fill them. -/

namespace Sys2Proof

/-- The four bytes of a word, joined least significant byte first, are the word. -/
theorem join_extractLsb' (w : BitVec 32) :
    (w.extractLsb' 0 8).setWidth 32 ||| (w.extractLsb' 8 8).setWidth 32 <<< 8 |||
      (w.extractLsb' 16 8).setWidth 32 <<< 16 ||| (w.extractLsb' 24 8).setWidth 32 <<< 24 = w := by
  ext i hi
  simp
  grind

theorem headerId_encodeHeader (param : Byte) (f : Fields) :
    headerId (encodeHeader param f) = identifierWord param f :=
  join_extractLsb' (identifierWord param f)

@[simp] theorem headerParam_encodeHeader (param : Byte) (f : Fields) : headerParam (encodeHeader param f) = param :=
  (headerParam_cons _ _).trans (identifierWord_low param f)

section IdentifierWord
variable (param : Byte) (f : Fields)

theorem identifierWord_src : (identifierWord param f).extractLsb' 8 7 = f.src := by
  ext i hi
  simp [identifierWord]
  grind

theorem identifierWord_dst : (identifierWord param f).extractLsb' 15 7 = f.dst := by
  ext i hi
  simp [identifierWord]
  grind

theorem identifierWord_fn : (identifierWord param f).extractLsb' 22 7 = f.fn := by
  ext i hi
  simp [identifierWord]
  grind

theorem identifierWord_rsvId : (identifierWord param f).extractLsb' 29 3 = f.rsvId := by
  ext i hi
  simp [identifierWord]
  grind

end IdentifierWord

theorem controlByte_len (f : Fields) : (controlByte f).extractLsb' 0 4 = f.len := by
  ext i hi
  simp [controlByte]
  grind

theorem controlByte_rsvCtl (f : Fields) : (controlByte f).extractLsb' 4 2 = f.rsvCtl := by
  ext i hi
  simp [controlByte]
  grind

theorem controlByte_request (f : Fields) : (controlByte f).getLsbD 6 = f.request := by
  simp [controlByte]

theorem controlByte_extended (f : Fields) : (controlByte f).getLsbD 7 = f.extended := by
  simp [controlByte]

@[simp] theorem headerFields_encodeHeader (param : Byte) (f : Fields) :
    headerFields (encodeHeader param f) = f := by
  have hctl : (encodeHeader param f).getD 4 0 = controlByte f := rfl
  simp only [headerFields, headerId_encodeHeader, hctl, identifierWord_src, identifierWord_dst, identifierWord_fn,
    identifierWord_rsvId, controlByte_len, controlByte_rsvCtl, controlByte_request, controlByte_extended]

/-- The four identifier fields of a header fill the identifier word: no bit is left over. -/
theorem identifierWord_header (h : List Byte) : identifierWord (headerParam h) (headerFields h) = headerId h := by
  ext i hi
  simp [identifierWord, headerParam, headerFields]
  grind

/-- The four control fields of a header fill its fifth byte. -/
theorem controlByte_header (h : List Byte) : controlByte (headerFields h) = h.getD 4 0 := by
  ext i hi
  simp [controlByte, headerFields]
  grind

/-- The bytes of the identifier word of a header are its first four. -/
theorem headerId_bytes (b0 b1 b2 b3 b4 : Byte) :
    (headerId [b0, b1, b2, b3, b4]).extractLsb' 0 8 = b0 ∧ (headerId [b0, b1, b2, b3, b4]).extractLsb' 8 8 = b1 ∧
      (headerId [b0, b1, b2, b3, b4]).extractLsb' 16 8 = b2 ∧
      (headerId [b0, b1, b2, b3, b4]).extractLsb' 24 8 = b3 := by
  refine ⟨?_, ?_, ?_, ?_⟩ <;>
  · ext i hi
    simp [headerId]
    grind

theorem encodeHeader_header {h : List Byte} (hl : h.length = headerBytes) :
    encodeHeader (headerParam h) (headerFields h) = h := by
  obtain ⟨b0, b1, b2, b3, b4, rfl⟩ : ∃ b0 b1 b2 b3 b4, h = [b0, b1, b2, b3, b4] :=
    match h, hl with
    | [b0, b1, b2, b3, b4], _ => ⟨b0, b1, b2, b3, b4, rfl⟩
  obtain ⟨h0, h1, h2, h3⟩ := headerId_bytes b0 b1 b2 b3 b4
  simp only [encodeHeader, identifierWord_header, controlByte_header, h0, h1, h2, h3]
  rfl

/-- Settles O2: the fields are read back one by one, and a header's own fields fill all its 40 bits. -/
theorem headerLayoutIsLossless : Obligations.HeaderLayoutIsLossless :=
  ⟨fun param f => ⟨headerParam_encodeHeader param f, headerFields_encodeHeader param f⟩,
    fun _ => encodeHeader_header⟩

end Sys2Proof

/-! PROOFS. Decoding is the left inverse of encoding (spec/30_encoding.md sections 1 and 4). -/

namespace Sys2Proof

theorem take_encodeHeader (param : Byte) (f : Fields) (bytes : List Byte) :
    (encodeHeader param f ++ bytes).take headerBytes = encodeHeader param f := rfl

theorem drop_encodeHeader (param : Byte) (f : Fields) (bytes : List Byte) :
    (encodeHeader param f ++ bytes).drop headerBytes = bytes := rfl

theorem headerBytes_le_encodeHeader (param : Byte) (f : Fields) (bytes : List Byte) :
    headerBytes ≤ (encodeHeader param f ++ bytes).length := by
  rw [List.length_append]
  exact Nat.le_add_right _ _

/-- The two reads of a pending sequence: a whole header with a reserved length ends with the header. -/
theorem decodeFrame_of_reserved {p : Params} {bytes : List Byte} (hheader : headerBytes ≤ bytes.length)
    (hlen : maxFramePayload < (headerFields (bytes.take headerBytes)).len.toNat) :
    decodeFrame p bytes =
      .ok (.reservedLen (headerParam (bytes.take headerBytes)) (headerFields (bytes.take headerBytes)),
        bytes.drop headerBytes) := by
  simp only [decodeFrame]
  rw [if_neg (Nat.not_lt.2 hheader), if_pos hlen, frameInstr, if_pos hlen]

/-- A frame of a legal length that is pending whole ends where its length field says. -/
theorem decodeFrame_of_legal {p : Params} {bytes : List Byte} {f : Fields} (hheader : headerBytes ≤ bytes.length)
    (hf : headerFields (bytes.take headerBytes) = f) (hlen : f.len.toNat ≤ maxFramePayload)
    (hpayload : f.len.toNat ≤ (bytes.drop headerBytes).length) :
    decodeFrame p bytes =
      .ok (frameInstr p ⟨headerParam (bytes.take headerBytes), f, (bytes.drop headerBytes).take f.len.toNat⟩,
        (bytes.drop headerBytes).drop f.len.toNat) := by
  subst hf
  simp only [decodeFrame]
  rw [if_neg (Nat.not_lt.2 hheader), if_neg (Nat.not_lt.2 hlen), if_neg (Nat.not_lt.2 hpayload)]

/-- What the decoder accepts, read backwards: a whole header with a reserved length, or a whole frame of a legal
length; the bytes after it are left. -/
theorem decodeFrame_eq_ok {p : Params} {bytes rest : List Byte} {i : Instr} {f : Fields}
    (hf : headerFields (bytes.take headerBytes) = f) (h : decodeFrame p bytes = .ok (i, rest)) :
    headerBytes ≤ bytes.length ∧
      ((maxFramePayload < f.len.toNat ∧ i = .reservedLen (headerParam (bytes.take headerBytes)) f ∧
          rest = bytes.drop headerBytes) ∨
        (f.len.toNat ≤ maxFramePayload ∧ f.len.toNat ≤ (bytes.drop headerBytes).length ∧
          i = frameInstr p ⟨headerParam (bytes.take headerBytes), f, (bytes.drop headerBytes).take f.len.toNat⟩ ∧
          rest = (bytes.drop headerBytes).drop f.len.toNat)) := by
  have hheader : headerBytes ≤ bytes.length := by
    by_contra hshort
    rw [decodeFrame, if_pos (Nat.not_le.1 hshort)] at h
    cases h
  refine ⟨hheader, ?_⟩
  by_cases hlen : f.len.toNat ≤ maxFramePayload
  · obtain ⟨-, hpayload, -⟩ := decodeFrame_eq_ok_of_legal h (by rwa [hf])
    rw [hf] at hpayload
    rw [decodeFrame_of_legal hheader hf hlen hpayload] at h
    obtain ⟨rfl, rfl⟩ := Prod.mk.inj (Except.ok.inj h)
    exact .inr ⟨hlen, hpayload, rfl, rfl⟩
  · subst hf
    rw [decodeFrame_of_reserved hheader (Nat.not_le.1 hlen)] at h
    obtain ⟨rfl, rfl⟩ := Prod.mk.inj (Except.ok.inj h)
    exact .inl ⟨Nat.not_le.1 hlen, rfl, rfl⟩

theorem payloadFits_eq_true {f : Fields} {payload : List Byte} :
    payloadFits f payload = true ↔ f.len.toNat ≤ maxFramePayload ∧ payload.length = f.len.toNat := by
  simp only [payloadFits, Bool.and_eq_true, decide_eq_true_eq]

/-- The decoder reads back the header and the declared payload, and leaves what follows. -/
theorem decodeFrame_encodeHeader_payload (p : Params) (param : Byte) {f : Fields} {payload : List Byte}
    (h : payloadFits f payload = true) (rest : List Byte) :
    decodeFrame p (encodeHeader param f ++ payload ++ rest) = .ok (frameInstr p ⟨param, f, payload⟩, rest) := by
  obtain ⟨hlen, hpayload⟩ := payloadFits_eq_true.1 h
  rw [List.append_assoc, decodeFrame_of_legal (headerBytes_le_encodeHeader ..) (f := f)
    (by rw [take_encodeHeader, headerFields_encodeHeader]) hlen (by rw [drop_encodeHeader, List.length_append]; omega),
    take_encodeHeader, drop_encodeHeader, headerParam_encodeHeader, ← hpayload, List.take_left, List.drop_left]

theorem decodeFrame_encodeHeader_reserved (p : Params) (param : Byte) {f : Fields}
    (h : maxFramePayload < f.len.toNat) (rest : List Byte) :
    decodeFrame p (encodeHeader param f ++ rest) = .ok (.reservedLen param f, rest) := by
  rw [decodeFrame_of_reserved (headerBytes_le_encodeHeader ..) (by rwa [take_encodeHeader, headerFields_encodeHeader]),
    take_encodeHeader, drop_encodeHeader, headerParam_encodeHeader, headerFields_encodeHeader]

/-- For an operation encoded as a frame, decoding the frame at the head of any stream says that it round-trips
and where it ends. -/
theorem decode_encode_of_frame {p : Params} {i : Instr} {bytes : List Byte} (he : encode p i = .frame bytes)
    (h : ∀ rest, decodeFrame p (bytes ++ rest) = .ok (i, rest)) :
    decode p (encode p i) = .ok i ∧
      ∀ bs rest : List Byte, encode p i = .frame bs → decodeFrame p (bs ++ rest) = .ok (i, rest) := by
  refine ⟨?_, fun bs rest hbs => ?_⟩
  · have hall := h []
    rw [List.append_nil] at hall
    rw [he, decode, hall]
    rfl
  · obtain rfl : bytes = bs := Encoded.frame.inj (he.symm.trans hbs)
    exact h rest

/-- An operation encoded on the command port is no frame: only the decoding of the port is left to say. -/
theorem decode_encode_of_command {p : Params} {i : Instr} {c : HostCmd} (he : encode p i = .command c)
    (h : decodeCommand c = .ok i) :
    decode p (encode p i) = .ok i ∧
      ∀ bs rest : List Byte, encode p i = .frame bs → decodeFrame p (bs ++ rest) = .ok (i, rest) :=
  ⟨by rw [he]; exact h, fun _ _ hbs => nomatch he.symm.trans hbs⟩

/-- Settles O1, row by row: a frame of a legal length has the role of its `parameter`, a reserved length needs the
header alone, and a command code selects its operands. -/
theorem decodeEncodeAgree : Obligations.DecodeEncodeAgree := by
  intro p i hlegal hwf
  obtain ⟨hne, -, -⟩ := Params.legal_eq_true.1 hlegal
  cases i with
  | startFrame f payload =>
    refine decode_encode_of_frame rfl fun rest => ?_
    rw [decodeFrame_encodeHeader_payload p _ hwf,
      frameInstr_of_role_start (payloadFits_eq_true.1 hwf).1 (role_of_eq_paramStart rfl)]
  | endFrame f payload =>
    refine decode_encode_of_frame rfl fun rest => ?_
    rw [decodeFrame_encodeHeader_payload p _ hwf,
      frameInstr_of_role_finish (payloadFits_eq_true.1 hwf).1 (role_of_eq_paramEnd hne.symm rfl)]
  | dataFrame seq f payload =>
    simp only [Instr.wf, Bool.and_eq_true, decide_eq_true_eq] at hwf
    obtain ⟨⟨hfits, hstart⟩, hend⟩ := hwf
    refine decode_encode_of_frame rfl fun rest => ?_
    rw [decodeFrame_encodeHeader_payload p _ hfits,
      frameInstr_of_role_data (payloadFits_eq_true.1 hfits).1 (role_of_ne hstart hend)]
  | reservedLen param f =>
    exact decode_encode_of_frame rfl (decodeFrame_encodeHeader_reserved p param (of_decide_eq_true hwf))
  | init tx rx => exact decode_encode_of_command rfl rfl
  | sendPacket op => exact decode_encode_of_command rfl (if_pos hwf)
  | receiveOneFrame a => exact decode_encode_of_command rfl rfl
  | reservedCmd => exact decode_encode_of_command rfl rfl

/-- Settles O3: the decoder is evaluated on the four written words. -/
theorem writtenWordsDecode : Obligations.WrittenWordsDecode := ⟨rfl, rfl, rfl, rfl⟩

end Sys2Proof

/-! PROOFS. A step is the step of the agent that moves (spec/00_scope.md R16), and the operation it runs. -/

namespace Sys2Proof.Machine

theorem step_of_event {s : State} {e : Event} (hl : s.legal = true) (he : s.nextEvent = e) :
    step s = applyEvent e s.afterEvent := by
  rw [step, agentStep, if_pos hl, he]

/-- Using up an event makes no unit busy or free. -/
theorem State.unitFree_afterEvent (s : State) (i : Instr) : s.afterEvent.unitFree i = s.unitFree i := by
  cases i <;> rfl

theorem hostStep_of_cons {s : State} {c : HostCmd} {cs : List HostCmd} {i : Instr} (hq : s.hostQueue = c :: cs)
    (hd : decodeCommand c = .ok i) :
    hostStep s = if s.unitFree i then exec i { s with hostQueue := cs } else .next s := by
  simp only [hostStep, hq, hd]

/-- Settles O5: on the host's event the head of the queue is decoded, and its unit is looked at. -/
theorem hostStepRunsTheDecodedCommand : Obligations.HostStepRunsTheDecodedCommand := by
  intro s c cs i hl he hq hd
  have hstep : step s = if s.unitFree i then exec i { s.afterEvent with hostQueue := cs } else .next s.afterEvent := by
    rw [step_of_event hl he, applyEvent, hostStep_of_cons (s := s.afterEvent) hq hd, State.unitFree_afterEvent]
  exact ⟨fun hfree => by rw [hstep, if_pos hfree], fun hbusy => by rw [hstep, hbusy]; rfl⟩

theorem State.frameReady_eq_true {s : State} :
    s.frameReady = true ↔ s.rPhase = .dispatch ∨ (s.rPhase = .payload ∧ maxFramePayload < s.fr.fields.len.toNat) := by
  simp only [State.frameReady, Bool.or_eq_true, Bool.and_eq_true, decide_eq_true_eq]

theorem step_of_fragmenter {s : State} {op : SendOp} (hl : s.legal = true) (he : s.nextEvent = .fragmenter)
    (ho : s.sendOp = some op) : step s = exec (.sendPacket op) s.afterEvent := by
  have ho' : s.afterEvent.sendOp = some op := ho
  rw [step_of_event hl he, applyEvent, fragmenterStep, ho']

theorem step_of_reassembler {s : State} {a : Addr} (hl : s.legal = true) (he : s.nextEvent = .reassembler)
    (ho : s.recvOp = some a) : step s = exec (s.receiveInstr a) s.afterEvent := by
  have ho' : s.afterEvent.recvOp = some a := ho
  rw [step_of_event hl he, applyEvent, reassemblerStep, ho']
  rfl

/-- Settles O6: the fragmenter runs the held SEND_PACKET; the reassembler's operation is read off the phase, and is
the same as RECEIVE_ONE_FRAME there. -/
theorem unitStepsRunTheHeldOperation : Obligations.UnitStepsRunTheHeldOperation := by
  refine ⟨fun s op hl he ho => step_of_fragmenter hl he ho, fun s a hl he ho => ?_⟩
  have hstep := step_of_reassembler hl he ho
  refine ⟨?_, hstep.trans (exec_receiveInstr a s.afterEvent)⟩
  rw [hstep, State.receiveInstr]
  simp only [State.frameReady_eq_true]

/-! A table word placed for the next step (the model's log 2). -/

theorem step_placeCommand {s : State} {c : HostCmd} {i : Instr} (hl : s.legal = true) (hd : decodeCommand c = .ok i)
    (hfree : s.unitFree i = true) : step (s.placeCommand c) = exec i s := by
  have hhost : step (s.placeCommand c) = hostStep (s.placeCommand c).afterEvent :=
    step_of_event (s := s.placeCommand c) hl rfl
  have hfree' : (s.placeCommand c).afterEvent.unitFree i = true := by
    cases i <;> exact hfree
  rw [hhost, hostStep_of_cons (c := c) (cs := s.hostQueue) rfl hd, if_pos hfree']
  rfl

/-- A frame that decodes is, once placed, the operation that is ready to run. -/
theorem State.placeFrame_receiveInstr {s : State} {bytes rest : List Byte} {i : Instr}
    (hd : decodeFrame s.cfg bytes = .ok (i, rest)) (a : Addr) : (s.placeFrame bytes).receiveInstr a = i := by
  obtain ⟨-, ⟨hlen, rfl, -⟩ | ⟨hlen, -, rfl, -⟩⟩ := decodeFrame_eq_ok rfl hd
  · simp [State.receiveInstr, State.frameReady, State.placeFrame, frameInstr, hlen]
  · simp [State.receiveInstr, State.frameReady, State.placeFrame, Nat.not_lt.2 hlen]

theorem step_placeFrame {s : State} {bytes rest : List Byte} {i : Instr} (hl : s.legal = true)
    (hd : decodeFrame s.cfg bytes = .ok (i, rest)) :
    step (s.placeFrame bytes) = exec i (s.placeFrame bytes).afterEvent := by
  have hstep := step_of_reassembler (s := s.placeFrame bytes) hl rfl rfl
  rwa [State.placeFrame_receiveInstr hd] at hstep

theorem decodeTableWord_eq_some {nbits w : Nat} {i : Instr} (h : decodeTableWord nbits w = some i) :
    ∃ e, tableEncoded nbits w = some e ∧ decode .default e = .ok i := by
  unfold decodeTableWord at h
  split at h
  next => cases h
  next e he =>
    split at h
    next i' hi => exact ⟨e, he, hi.trans (congrArg Except.ok (Option.some.inj h))⟩
    next => cases h

theorem decode_frame_eq_ok {p : Params} {bytes : List Byte} {i : Instr} (h : decode p (.frame bytes) = .ok i) :
    ∃ rest, decodeFrame p bytes = .ok (i, rest) := by
  rw [decode] at h
  cases hd : decodeFrame p bytes with
  | error r => rw [hd] at h; cases h
  | ok x =>
    rw [hd] at h
    obtain rfl : x.1 = i := Except.ok.inj h
    exact ⟨x.2, rfl⟩

/-- A block with both units free takes every operation. -/
theorem State.unitFree_of_idle {s : State} (hf : s.fPhase = .idle) (ho : s.sendOp = none) (hr : s.rPhase = .idle)
    (i : Instr) : s.unitFree i = true := by
  cases i with
  | init => exact State.unitFree_init.2 ⟨⟨ho, hf⟩, hr⟩
  | sendPacket => exact State.unitFree_send.2 ⟨ho, hf⟩
  | receiveOneFrame => exact State.unitFree_receive.2 hr
  | _ => rfl

/-- Settles O8: a word of at most 8 bits is placed as a command, one of 40 bits as a frame, and each is decoded as
`decodeTableWord` decodes it. -/
theorem placedWordRunsNext : Obligations.PlacedWordRunsNext := by
  intro s nbits w i hl hcfg hf ho hr h
  obtain ⟨e, he, hd⟩ := decodeTableWord_eq_some h
  have hplaced : s.withFetchWord nbits w = s.placeEncoded e := by rw [State.withFetchWord, he]
  rw [hplaced]
  refine ⟨fun hbits => ?_, fun hbits => ?_⟩
  · rw [tableEncoded, if_neg (by omega), if_pos hbits] at he
    obtain rfl := Option.some.inj he
    exact step_placeCommand hl hd (State.unitFree_of_idle hf ho hr i)
  · rw [tableEncoded, if_pos hbits] at he
    obtain rfl := Option.some.inj he
    obtain ⟨rest, hd⟩ := decode_frame_eq_ok hd
    exact step_placeFrame hl (hcfg ▸ hd)

end Sys2Proof.Machine

/-! PROOFS. Reset (spec/10_state.md section 5). -/

namespace Sys2Proof.Machine

/-- Settles O11: every clause but the lengths is a field of the reset block; the lengths are those of `Slot.reset`. -/
theorem resetEventDropsOperationsAndKeepsTheTransport : Obligations.ResetEventDropsOperationsAndKeepsTheTransport := by
  intro s hl he
  refine ⟨_, step_of_reset hl he, fun sl hsl => ?_, rfl, rfl, rfl, rfl, rfl, rfl, rfl, rfl, rfl, rfl, rfl, rfl, rfl,
    rfl⟩
  rw [State.resetBlock_slots] at hsl
  rw [List.eq_of_mem_replicate hsl]
  rfl

theorem eq_reset_of_mem_reset_slots {sl : Slot} (h : sl ∈ State.reset.slots) : sl = Slot.reset :=
  List.eq_of_mem_replicate h

/-- Where no slot assembles, no stream is assembled twice. -/
theorem slotsUnique_of_idle {s : State} (h : ∀ sl ∈ s.slots, sl.inProgress = false) : SlotsUnique s := by
  intro i _ hi _ hp
  exact absurd ((h _ (s.slot_mem i hi)).symm.trans hp) (by decide)

/-- Settles O12: every slot is `Slot.reset`, and no unit runs. -/
theorem resetStateMeetsTheInvariant : Obligations.ResetStateMeetsTheInvariant where
  legal := by decide
  unique := slotsUnique_of_idle fun _ => inProgress_of_mem_replicate_reset
  bounded := fun sl h => by rw [eq_reset_of_mem_reset_slots h]; decide
  idleEmpty := fun sl h _ => by rw [eq_reset_of_mem_reset_slots h]; rfl
  canonical := fun sl h => by rw [eq_reset_of_mem_reset_slots h]; decide
  written := fun sl h hp => by rw [eq_reset_of_mem_reset_slots h] at hp; cases hp
  binding := rfl
  send := ⟨fun _ h => (nomatch h), by decide, fun h => absurd rfl h⟩
  receive := ⟨by decide, fun h => absurd rfl h, by decide, by decide⟩

end Sys2Proof.Machine

/-! PROOFS. No operation is refused, and only an END frame can fault: where the accumulated bytes of its slot cannot be
read (spec/10_state.md R23, R26). -/

namespace Sys2Proof.Machine

/-- The accumulated bytes of every assembling slot can be read. -/
def SlotsReadable (slots : List Slot) : Prop :=
  ∀ sl ∈ slots, sl.inProgress = true → ∃ bytes, bufRead sl.buf 0 sl.accLen.toNat = .ok bytes

/-- What INV-LEN and the written bytes are for. -/
theorem slotsReadable_of_written {s : State} (hb : SlotsBounded s) (hw : BuffersWritten s) : SlotsReadable s.slots := by
  intro sl hsl hp
  refine bufRead_written sl.buf 0 sl.accLen.toNat (by rw [Nat.zero_add]; exact hb sl hsl) fun k hk => ?_
  rw [Nat.zero_add]
  exact hw sl hsl hp k hk

/-- The outcome is no refusal, and a fault only where `ok` fails. -/
def GoesOn (ok : Prop) : Outcome → Prop
  | .next _ => True
  | .fault _ => ¬ ok
  | .refused _ => False

theorem GoesOn.ne_refused {ok : Prop} {o : Outcome} (h : GoesOn ok o) (r : Refusal) : o ≠ .refused r := by
  rintro rfl
  exact h

theorem GoesOn.next {ok : Prop} {o : Outcome} (h : GoesOn ok o) (hok : ok) : ∃ t, o = .next t := by
  cases o with
  | next t => exact ⟨t, rfl⟩
  | fault r => exact absurd hok h
  | refused r => exact h.elim

theorem goesOn_of_next {ok : Prop} {o : Outcome} {t : State} (h : o = .next t) : GoesOn ok o := by
  rw [h]
  trivial

/-- Step C goes on where the branch of the role does on the resolved slot. -/
theorem goesOn_underLock_resolveThen {ok : Prop} {fn : Addr} {branch : Nat → State → Outcome} {s : State}
    (h : ∀ i, i < s.slots.length → GoesOn ok (branch i s.acquire)) :
    GoesOn ok (underLock (resolveThen fn branch) s) := by
  cases hl : s.lockHeld with
  | true => exact goesOn_of_next (underLock_held _ s hl)
  | false =>
    cases hr : resolve s.slots fn with
    | none => exact goesOn_of_next (underLock_none fn branch s hl hr)
    | some i =>
      obtain ⟨hi, -⟩ := resolve_eq_some hr
      have hbranch := h i hi
      rw [underLock_some fn branch s i hl hr]
      cases ho : branch i s.acquire with
      | next t => trivial
      | fault r => rw [ho] at hbranch; exact hbranch
      | refused r => rw [ho] at hbranch; exact hbranch

theorem onEnd_goesOn (f : Fields) (payload : List Byte) {i : Nat} {s : State} (hi : i < s.slots.length) :
    GoesOn (SlotsReadable s.slots) (onEnd f payload i s) := by
  rcases onEnd_cases f payload i s with ⟨-, h⟩ | ⟨-, -, h⟩ | ⟨hp, r, hr, h⟩ | ⟨-, bytes, -, ⟨-, h⟩ | ⟨-, h⟩⟩
  · exact goesOn_of_next h
  · exact goesOn_of_next h
  · rw [h]
    intro hread
    obtain ⟨bytes, hbytes⟩ := hread _ (s.slot_mem i hi) hp
    exact nomatch hr.symm.trans hbytes
  · exact goesOn_of_next h
  · exact goesOn_of_next h

theorem onData_goesOn (ok : Prop) (f : Fields) (payload : List Byte) (i : Nat) (s : State) :
    GoesOn ok (onData f payload i s) := by
  rcases onData_cases f payload i s with ⟨-, h⟩ | ⟨-, -, h⟩ | ⟨-, -, h⟩ <;> exact goesOn_of_next h

/-- The four frame rows. -/
theorem exec_frameInstr_goesOn (s : State) (p : Params) (fr : FrameReg) :
    GoesOn (SlotsReadable s.slots) (exec (frameInstr p fr) s) := by
  rw [frameInstr]
  split
  next => trivial
  next =>
    split
    next => exact goesOn_underLock_resolveThen fun _ _ => trivial
    next => exact goesOn_underLock_resolveThen fun i hi => onEnd_goesOn fr.fields fr.payload (s := s.acquire) hi
    next => exact goesOn_underLock_resolveThen fun i _ => onData_goesOn _ fr.fields fr.payload i s.acquire

theorem exec_receiveOneFrame_goesOn (a : Addr) (s : State) :
    GoesOn (SlotsReadable s.slots) (exec (.receiveOneFrame a) s) := by
  cases hp : s.rPhase with
  | idle =>
    cases hb : s.rxBound with
    | false => exact goesOn_of_next (exec_receive_unbound a hp hb)
    | true =>
      obtain ⟨u, h, -⟩ := exec_receive_bound a hp hb
      exact goesOn_of_next h
  | header =>
    rcases received_cases s headerBytes with ⟨-, -, hsome, -⟩ | ⟨-, hnone, -⟩
    · obtain ⟨u, h, -⟩ := exec_receive_header_served a hp hsome
      exact goesOn_of_next h
    · exact goesOn_of_next (exec_receive_header_none a hp hnone)
  | payload =>
    by_cases hlen : s.fr.fields.len.toNat ≤ maxFramePayload
    · by_cases hread : s.fr.fields.len.toNat ≠ 0 ∧ s.received s.fr.fields.len.toNat = none
      · exact goesOn_of_next (exec_receive_payload_none a hp hlen hread.1 hread.2)
      · obtain ⟨u, h, -⟩ := exec_receive_payload_fetched a hp hlen hread
        exact goesOn_of_next h
    · exact goesOn_of_next (exec_receive_malformed a hp (Nat.not_le.1 hlen))
  | filter =>
    by_cases hdst : s.fr.fields.dst = a
    · exact goesOn_of_next (exec_receive_own a hp hdst)
    · exact goesOn_of_next (exec_receive_foreign a hp hdst)
  | dispatch =>
    rw [exec_receive_dispatch a hp]
    exact exec_frameInstr_goesOn s s.cfg s.fr

/-- INIT is accepted whole or rejected whole. -/
theorem exec_init_cases (tx rx : Bool) (s : State) :
    (tx = true ∧ rx = true ∧
      exec (.init tx rx) s = .next ({ s with txBound := true, rxBound := true }.deliver .init .ok none)) ∨
    exec (.init tx rx) s = .next (s.deliver .init .initRejected none) := by
  cases tx <;> cases rx
  · exact .inr rfl
  · exact .inr rfl
  · exact .inr rfl
  · exact .inl ⟨rfl, rfl, rfl⟩

/-- The operations the host can issue. -/
theorem exec_command_goesOn {c : HostCmd} {i : Instr} (h : decodeCommand c = .ok i) (s : State) :
    GoesOn (SlotsReadable s.slots) (exec i s) := by
  rcases decodeCommand_cases h with ⟨tx, rx, rfl⟩ | ⟨op, rfl, -⟩ | ⟨a, rfl⟩ | rfl
  · rcases exec_init_cases tx rx s with ⟨-, -, h⟩ | h <;> exact goesOn_of_next h
  · obtain ⟨t, h, -⟩ := exec_sendPacket_frame op s
    exact goesOn_of_next h
  · exact exec_receiveOneFrame_goesOn a s
  · trivial

/-- Of an event only a command can be refused, and only as ill-formed; a fault needs a slot that cannot be read. -/
theorem applyEvent_cases (e : Event) (s : State) :
    applyEvent e s = .refused .illFormedCommand ∨ GoesOn (SlotsReadable s.slots) (applyEvent e s) := by
  cases e with
  | host =>
    rw [applyEvent, hostStep]
    split
    next => exact .inr trivial
    next c cs _ =>
      split
      next => exact .inl rfl
      next i hd =>
        split
        next => exact .inr (exec_command_goesOn hd { s with hostQueue := cs })
        next => exact .inr trivial
  | fragmenter =>
    rw [applyEvent, fragmenterStep]
    split
    next => exact .inr trivial
    next op _ =>
      obtain ⟨t, h, -⟩ := exec_sendPacket_frame op s
      exact .inr (goesOn_of_next h)
  | reassembler =>
    rw [applyEvent, reassemblerStep]
    split
    next => exact .inr trivial
    next a _ =>
      rw [exec_receiveInstr]
      exact .inr (exec_receiveOneFrame_goesOn a s)
  | _ => exact .inr trivial

theorem State.legal_eq_false_iff {s : State} :
    s.legal = false ↔
      s.cfg.paramStart = s.cfg.paramEnd ∨ s.cfg.paramStart.toNat ≤ 31 ∨ s.cfg.paramEnd.toNat ≤ 31 ∨ s.slots = [] := by
  rw [← Bool.not_eq_true, State.legal, Bool.and_eq_true, Params.legal_eq_true, decide_eq_true_eq,
    List.length_pos_iff]
  simp only [not_and_or, Ne, not_not, Nat.not_lt, or_assoc]

/-- Settles O9: an illegal configuration is refused at once, and under a legal one the only refusal is that of an
ill-formed command. -/
theorem illegalConfigurationIsRefused : Obligations.IllegalConfigurationIsRefused := by
  intro s
  rw [← State.legal_eq_false_iff, step, agentStep]
  cases hl : s.legal with
  | false => simp
  | true =>
    rw [if_pos rfl]
    refine ⟨fun h => (Bool.noConfusion h), fun h => ?_⟩
    rcases applyEvent_cases s.nextEvent s.afterEvent with hill | hgoes
    · exact nomatch h.symm.trans hill
    · exact absurd h (hgoes.ne_refused _)

/-- Settles O16: the invariant makes the accumulated bytes of every assembling slot readable. -/
theorem noFaultFromTheInvariant : Obligations.NoFaultFromTheInvariant := by
  intro s r hinv h
  rw [step_of_event hinv.legal rfl] at h
  rcases applyEvent_cases s.nextEvent s.afterEvent with hill | hgoes
  · exact nomatch h.symm.trans hill
  · obtain ⟨t, ht⟩ := hgoes.next (slotsReadable_of_written hinv.bounded hinv.written)
    exact nomatch h.symm.trans ht

end Sys2Proof.Machine

/-! PROOFS. INIT, the reserved command, and the steps of SEND_PACKET one by one (spec/40_host_operations.md,
spec/41_fragmenter.md section 2). -/

namespace Sys2Proof.Machine

/-- Settles O18: each pair of presence bits evaluates to its whole state. -/
theorem initBindsBothOrNeither : Obligations.InitBindsBothOrNeither := fun _ => ⟨rfl, rfl, rfl, rfl⟩

/-- Settles O19: the row delivers its result and does nothing else. -/
theorem reservedCommandIsAnsweredRefused : Obligations.ReservedCommandIsAnsweredRefused := fun _ => rfl

/-- Ending the send of a fragmenter that is free only delivers the result. -/
theorem State.finishSend_of_free {s : State} (hp : s.fPhase = .idle) (ho : s.sendOp = none) (kind : ResultKind) :
    s.finishSend kind = { s with results := s.results ++ [⟨.send, kind, none⟩] } := by
  cases s
  subst hp ho
  rfl

/-- Settles O21: the two tests in their order, on a free fragmenter. -/
theorem sendIsTurnedAwayUntouched : Obligations.SendIsTurnedAwayUntouched := by
  intro op s hp ho
  rw [exec_sendPacket_free op s hp ho, acceptSend]
  refine ⟨fun hb => ?_, fun hb hlong => ?_⟩
  · rw [if_pos (by rw [hb]; rfl), State.finishSend_of_free hp ho]
  · rw [if_neg (by rw [hb]; decide), if_pos hlong, State.finishSend_of_free hp ho]

/-- Held operands in `F_IDLE`, and `F_START`, are the two states whose next step is EMIT_START. -/
theorem exec_sendPacket_start {op : SendOp} {s : State}
    (h : (s.fPhase = .idle ∧ s.sendOp = some op) ∨ s.fPhase = .start) :
    exec (.sendPacket op) s = emitStart op s := by
  rcases h with ⟨hp, ho⟩ | hp
  · exact exec_sendPacket_held op op s hp ho
  · simp only [exec, execSendPacket, hp]

/-- Settles O22: EMIT_START sets up the registers whatever the call answers, and moves the phase on where it answers
ok. -/
theorem sendBeginsWithAStartFrame : Obligations.SendBeginsWithAStartFrame := by
  rintro op s bytes rfl
  refine ⟨fun hp ho hb hfits => ReadyToSend.exec ⟨hp, ho, hb, hfits⟩, fun hstart => ⟨rfl, ?_, fun hok => ?_⟩⟩
  · rw [exec_sendPacket_start hstart]
    rcases emitStart_cases op s with ⟨-, h⟩ | ⟨n, -, h⟩
    · exact ⟨_, h, rfl, rfl, rfl, rfl, rfl⟩
    · exact ⟨_, h, rfl, rfl, rfl, rfl, rfl⟩
  · rw [exec_sendPacket_start hstart, emitStart_of_ok hok]
    rfl

/-- Settles O23: the turn of the loop whose chunk is not empty. -/
theorem eachDataFrameCarriesTheNextChunk : Obligations.EachDataFrameCarriesTheNextChunk := by
  rintro op s n chunk hp ho hok rfl rfl
  rw [exec_sendPacket_data op hp ho hok]
  rfl

/-- Settles O24: EMIT_END with its call answered ok. -/
theorem sendEndsWithAnEndFrame : Obligations.SendEndsWithAnEndFrame := by
  intro op s hp hok
  rw [exec_sendPacket_finish op hp hok]
  rfl

theorem emit_of_error {s : State} {n : Nat} (h : s.nextTxAnswer = .error n) (bytes : List Byte)
    (onOk : State → State) : emit bytes onOk s = .next ((s.transmit bytes).finishSend .sendFailure) := by
  rw [emit, h]

/-- Settles O25: in each phase the step is one `emit`, and an error is the same for all of them. -/
theorem transmitErrorEndsTheSend : Obligations.TransmitErrorEndsTheSend := by
  intro op s n herr
  refine ⟨fun hstart => ?_, fun hp ho => ?_, fun hp => ?_⟩
  · rw [exec_sendPacket_start hstart, emitStart, emit_of_error ((State.setupSend_nextTxAnswer s op).trans herr)]
    rfl
  · simp only [exec, execSendPacket, hp]
    rw [emitData, if_pos ho, emit_of_error herr]
  · simp only [exec, execSendPacket, hp]
    rw [emitEnd, emit_of_error herr]

end Sys2Proof.Machine

/-! PROOFS. The fetch and the filter step by step, as updates of the state (spec/42_frame_parser.md section 1). -/

namespace Sys2Proof.Machine

/-- Settles O33: the dispatch of RECEIVE_ONE_FRAME on a free reassembler. -/
theorem receiveIsTurnedAwayOrBegins : Obligations.ReceiveIsTurnedAwayOrBegins := by
  intro a s hp ho
  refine ⟨fun hb => ?_, fun hb => ?_⟩
  · rw [exec_receive_unbound a hp hb]
    cases s
    subst hp ho
    rfl
  · simp only [exec, execReceiveOneFrame, hp, acceptReceive, hb]
    rfl

theorem State.received_of_fail {s : State} {n : Nat} (h : s.nextRxAnswer = .fail ∨ s.rxFifo.length < n) :
    s.received n = none := by
  refine if_neg fun ⟨hserve, hn⟩ => ?_
  rcases h with h | h
  · exact nomatch h.symm.trans hserve
  · omega

/-- A failed `ReceiveExact` leaves the FIFO as it was. -/
theorem State.afterReceive_of_none {s : State} {n : Nat} (h : s.received n = none) :
    { s.afterReceive n with rxFifo := s.rxFifo } = s.afterReceive n := by
  simp [State.afterReceive, h]

/-- The header read that is served, as one update of the state. -/
theorem exec_receive_header {s : State} (a : Addr) (hp : s.rPhase = .header)
    (h : s.received headerBytes = some (s.rxFifo.take headerBytes)) :
    exec (.receiveOneFrame a) s = .next { s.afterReceive headerBytes with
      rxFifo := s.rxFifo.drop headerBytes
      fr := { s.fr with
        param := headerParam (s.rxFifo.take headerBytes), fields := headerFields (s.rxFifo.take headerBytes) }
      rPhase := .payload } := by
  simp only [exec, execReceiveOneFrame, hp, fetchHeader, h, State.afterReceive]
  rfl

/-- Settles O34: the transport serves the five bytes, or the call fails. -/
theorem headerReadTakesFiveBytesOrNone : Obligations.HeaderReadTakesFiveBytesOrNone := by
  intro a s hp
  refine ⟨fun hserve hlen => exec_receive_header a hp (State.received_of_serve hserve hlen), fun hfail => ?_⟩
  have hnone : s.received 5 = none := State.received_of_fail hfail
  rw [exec_receive_header_none a hp hnone, State.afterReceive_of_none hnone]
  rfl

/-- Length 0 makes no read. -/
theorem exec_receive_payload_zero {s : State} (a : Addr) (hp : s.rPhase = .payload)
    (h0 : s.fr.fields.len.toNat = 0) :
    exec (.receiveOneFrame a) s = .next { s with fr := { s.fr with payload := [] }, rPhase := .filter } := by
  simp only [exec, execReceiveOneFrame, hp, fetchPayload]
  rw [h0, if_neg (by decide), if_pos rfl]

/-- The payload read that is served, as one update of the state. -/
theorem exec_receive_payload {s : State} (a : Addr) (hp : s.rPhase = .payload)
    (hlen : s.fr.fields.len.toNat ≤ maxFramePayload) (h0 : s.fr.fields.len.toNat ≠ 0)
    (h : s.received s.fr.fields.len.toNat = some (s.rxFifo.take s.fr.fields.len.toNat)) :
    exec (.receiveOneFrame a) s = .next { s.afterReceive s.fr.fields.len.toNat with
      rxFifo := s.rxFifo.drop s.fr.fields.len.toNat
      fr := { s.fr with payload := s.rxFifo.take s.fr.fields.len.toNat }
      rPhase := .filter } := by
  simp only [exec, execReceiveOneFrame, hp, fetchPayload]
  rw [if_neg (Nat.not_lt.2 hlen), if_neg h0, h]
  simp only [State.afterReceive, h]
  rfl

/-- Settles O35: no read, a read that is served, a read that fails. -/
theorem payloadReadTakesTheDeclaredLength : Obligations.PayloadReadTakesTheDeclaredLength := by
  rintro a s n hp rfl hlen
  refine ⟨exec_receive_payload_zero a hp, fun h0 hserve hn => ?_, fun h0 hfail => ?_⟩
  · exact exec_receive_payload a hp hlen (Nat.pos_iff_ne_zero.1 h0) (State.received_of_serve hserve hn)
  · have hnone := State.received_of_fail hfail
    rw [exec_receive_payload_none a hp hlen (Nat.pos_iff_ne_zero.1 h0) hnone, State.afterReceive_of_none hnone]

/-- The payload read where the declared bytes are pending and the transport serves them: the frame register holds the
frame. -/
theorem exec_receive_payload_pending {s : State} (a : Addr) (hp : s.rPhase = .payload)
    (hlen : s.fr.fields.len.toNat ≤ maxFramePayload) (hserve : s.nextRxAnswer = .serve)
    (hn : s.fr.fields.len.toNat ≤ s.rxFifo.length) :
    ∃ u, exec (.receiveOneFrame a) s = .next u ∧ Consumed s s.fr.fields.len.toNat u ∧ u.rPhase = .filter ∧
      SameSendSide s u ∧
      u.fr = { s.fr with payload := s.rxFifo.take s.fr.fields.len.toNat } ∧
      u.rxAnswers = if s.fr.fields.len.toNat = 0 then s.rxAnswers else s.rxAnswers.tail := by
  by_cases h0 : s.fr.fields.len.toNat = 0
  · refine ⟨_, exec_receive_payload_zero a hp h0, ⟨rfl, rfl, rfl, ?_⟩, rfl, by constructor <;> rfl, ?_, ?_⟩
    · rw [h0, List.drop_zero]
    · rw [h0, List.take_zero]
    · rw [if_pos h0]
  · refine ⟨_, exec_receive_payload a hp hlen h0 (State.received_of_serve hserve hn), ⟨rfl, rfl, rfl, rfl⟩, rfl,
      by constructor <;> rfl, rfl, ?_⟩
    rw [if_neg h0]
    rfl

/-- Settles O7: the header read takes what the decoder's header is, the payload read what its payload is. -/
theorem fetchReadsTheDecodedFrame : Obligations.FetchReadsTheDecodedFrame := by
  intro s a i rest more hp ha hdec
  obtain ⟨hheader, hframe⟩ := decodeFrame_eq_ok rfl hdec
  have hread := State.received_of_serve (State.nextRxAnswer_of_cons ha) hheader
  refine ⟨_, exec_receive_header a hp hread, rfl, rfl, ?_⟩
  rcases hframe with ⟨hlen, rfl, hrest⟩ | ⟨hlen, hpayload, rfl, hrest⟩
  · exact .inl ⟨hlen, rfl, if_pos hlen, hrest.symm⟩
  · refine .inr ⟨hlen, ?_⟩
    obtain ⟨u, hexec, hcons, hu, hsame, hfr, -⟩ := exec_receive_payload_pending (s := { s.afterReceive headerBytes with
        rxFifo := s.rxFifo.drop headerBytes
        fr := { s.fr with
          param := headerParam (s.rxFifo.take headerBytes), fields := headerFields (s.rxFifo.take headerBytes) }
        rPhase := .payload }) a rfl hlen (State.nextRxAnswer_of_cons (congrArg List.tail ha)) hpayload
    refine ⟨u, hexec, hu, ?_, hcons.rxFifo.trans hrest.symm, hcons.slots, hcons.results⟩
    rw [hsame.cfg, hfr]
    rfl

end Sys2Proof.Machine

/-! PROOFS. Whole invocations: the malformed header, the transport that keeps frames whole, and progress
(spec/42_frame_parser.md section 1, spec/70_reset_and_hazards.md sections 2 and 3). -/

namespace Sys2Proof.Machine

/-- A result of the class `streamFault` makes the run no good run, whatever was delivered before it. -/
theorem streamGood_of_malformed {s t : State} (h : t.results = s.results ++ [receiveResult .malformedHeader]) :
    t.streamGood = false := by
  rw [State.streamGood, h, List.all_append]
  exact Bool.and_false _

/-- Settles O37: the row is its own end of the invocation, and the invocation reaches it with the header taken and
nothing else. -/
theorem malformedHeaderConsumesFiveBytes : Obligations.MalformedHeaderConsumesFiveBytes := by
  refine ⟨fun _ _ _ => rfl, fun a s more hp hb ha hheader hlen => ?_⟩
  obtain ⟨u, hbegin, hcons, hu, hanswers⟩ := exec_receive_bound a hp hb
  have hfifo : u.rxFifo = s.rxFifo := hcons.rxFifo
  have hserve : u.nextRxAnswer = .serve := State.nextRxAnswer_of_cons (hanswers.trans ha)
  obtain ⟨v, hfetch, hcons', hv, hfields, -⟩ := exec_receive_header_served a hu
    (State.received_of_serve hserve (by rw [hfifo]; exact hheader))
  have hend := continueReceive_of_finish (by rw [hv]; decide)
    (exec_receive_malformed a hv (by rw [hfields, hfifo]; exact hlen)) 2
  have htaken : Consumed s headerBytes v := Nat.zero_add headerBytes ▸ hcons.trans hcons'
  have hresults : (v.finishReceive .malformedHeader none).results = s.results ++ [receiveResult .malformedHeader] := by
    rw [State.finishReceive_results, htaken.results]
    rfl
  refine ⟨v.finishReceive .malformedHeader none, ?_, hresults, htaken.rxFifo, htaken.slots, htaken.lockHeld,
    streamGood_of_malformed hresults⟩
  rw [callReceive_of_exec hbegin, maxReceiveSteps, continueReceive_of_exec (by rw [hu]; decide) hfetch, hend]

/-! Whole frames: the transport's duty, frame by frame. -/

theorem framesWhole_nil (fuel : Nat) : framesWhole fuel [] = true := by
  cases fuel <;> rfl

/-- A whole frame of a legal length at the head, and `fuel` whole frames at most after it. -/
theorem framesWhole_succ {fuel : Nat} {bytes : List Byte} (hne : bytes ≠ []) :
    framesWhole (fuel + 1) bytes = true ↔
      headerBytes ≤ bytes.length ∧ (headerFields (bytes.take headerBytes)).len.toNat ≤ maxFramePayload ∧
        headerBytes + (headerFields (bytes.take headerBytes)).len.toNat ≤ bytes.length ∧
        framesWhole fuel (bytes.drop (headerBytes + (headerFields (bytes.take headerBytes)).len.toNat)) = true := by
  simp only [framesWhole, List.isEmpty_eq_false_iff.2 hne, Bool.false_or, Bool.and_eq_true, decide_eq_true_eq,
    and_assoc]

/-- Each frame has at least a header, so as much fuel as there are bytes is always enough. -/
theorem framesWhole_of_length_le {fuel fuel' : Nat} {bytes : List Byte} (h : framesWhole fuel bytes = true)
    (hfuel : bytes.length ≤ fuel') : framesWhole fuel' bytes = true := by
  induction fuel generalizing bytes fuel' with
  | zero =>
    obtain rfl : bytes = [] := List.isEmpty_iff.1 h
    exact framesWhole_nil fuel'
  | succ fuel ih =>
    by_cases hne : bytes = []
    · rw [hne]
      exact framesWhole_nil fuel'
    · obtain ⟨hheader, hlen, hframe, hrest⟩ := (framesWhole_succ hne).1 h
      have hpos : headerBytes = 5 := rfl
      obtain ⟨fuel', rfl⟩ : ∃ k, fuel' = k + 1 := ⟨fuel' - 1, by omega⟩
      refine (framesWhole_succ hne).2 ⟨hheader, hlen, hframe, ih hrest ?_⟩
      rw [List.length_drop]
      omega

/-- What the transport's duty says of the head of a FIFO that is not empty. -/
theorem wholeFrames_cases {bytes : List Byte} (h : wholeFrames bytes = true) :
    bytes = [] ∨ ∃ f, headerFields (bytes.take headerBytes) = f ∧ headerBytes ≤ bytes.length ∧
      f.len.toNat ≤ maxFramePayload ∧ f.len.toNat ≤ (bytes.drop headerBytes).length ∧
      wholeFrames (bytes.drop (headerBytes + f.len.toNat)) = true := by
  by_cases hne : bytes = []
  · exact .inl hne
  · obtain ⟨hheader, hlen, hframe, hrest⟩ :=
      (framesWhole_succ hne).1 (framesWhole_of_length_le h (Nat.le_succ bytes.length))
    refine .inr ⟨_, rfl, hheader, hlen, ?_, framesWhole_of_length_le hrest le_rfl⟩
    rw [List.length_drop]
    omega

/-- An invocation with nothing pending: the header read fails. -/
theorem callReceive_of_empty {a : Addr} {s : State} (hp : s.rPhase = .idle) (hb : s.rxBound = true)
    (hempty : s.rxFifo = []) :
    ∃ t, callReceive a s = .next t ∧ t.rxFifo = [] ∧ t.results = s.results ++ [receiveResult .noData] := by
  obtain ⟨u, hbegin, hcons, hu, -⟩ := exec_receive_bound a hp hb
  have hfifo : u.rxFifo = [] := hcons.rxFifo.trans hempty
  have hnone : u.received headerBytes = none := State.received_of_fail (.inr (by rw [hfifo]; decide))
  refine ⟨(u.afterReceive headerBytes).finishReceive .noData none, ?_, ?_, ?_⟩
  · rw [callReceive_of_exec hbegin, maxReceiveSteps,
      continueReceive_of_finish (by rw [hu]; decide) (exec_receive_header_none a hu hnone)]
  · rw [State.finishReceive_rxFifo, (consumed_afterReceive_of_none hnone).rxFifo, hfifo, List.drop_nil]
  · rw [State.finishReceive_results, State.afterReceive_results, hcons.results]
    rfl

/-- Settles O38: with nothing pending the header read fails, with a frame pending it is taken whole and answered as a
whole frame. -/
theorem wholeFramesStayWhole : Obligations.WholeFramesStayWhole := by
  intro a s t more hp hb hl ha hwhole hcall
  rcases wholeFrames_cases hwhole with hempty | ⟨f, hf, hheader, hlen, hpayload, hrest⟩
  · obtain ⟨t', hcall', hfifo, hresults⟩ := callReceive_of_empty (a := a) hp hb hempty
    obtain rfl : t' = t := Host.Outcome.next.inj (hcall'.symm.trans hcall)
    refine ⟨by rw [hfifo]; rfl, _, hresults, by decide, fun _ => hempty, fun _ => rfl⟩
  · obtain ⟨u, hreach, hcons, hu, hfields⟩ := callReceive_reaches_filter (a := a) hp hb ha hf hlen hheader hpayload
    obtain ⟨r, hend, -, hnodata, hwellformed⟩ := continueReceive_filter hu (hcons.lockHeld.trans hl)
      (by rw [hfields]; exact hlen) (hreach.symm.trans hcall)
    have hend := hcons.endsWith hend
    refine ⟨by rw [hend.rxFifo]; exact hrest, r, hend.results, hwellformed, fun h => absurd h hnodata, fun h => ?_⟩
    rw [h] at hheader
    exact absurd hheader (by decide)

/-! Progress: each step of an invocation ends it or brings it one phase on. -/

/-- How many steps an invocation in a phase has before it at most. -/
def RPhase.stepsLeft : RPhase → Nat
  | .idle => 0
  | .header => 4
  | .payload => 3
  | .filter => 2
  | .dispatch => 1

/-- The reassembler is idle and has delivered one result more. -/
structure ReceiveEnded (s t : State) : Prop where
  rPhase : t.rPhase = .idle
  recvOp : t.recvOp = none
  lockHeld : t.lockHeld = false
  results : ∃ k pkt, t.results = s.results ++ [⟨.receive, k, pkt⟩]

/-- What can be said of an invocation before each of its steps: the lock is free, the slots are readable. -/
structure ReceiveCanGoOn (s : State) : Prop where
  lockHeld : s.lockHeld = false
  readable : SlotsReadable s.slots

theorem exec_receive_progress (a : Addr) {s : State} (h : ReceiveCanGoOn s) (hp : s.rPhase ≠ .idle) :
    ∃ t, exec (.receiveOneFrame a) s = .next t ∧
      (ReceiveEnded s t ∨
        (ReceiveCanGoOn t ∧ t.results = s.results ∧ t.rPhase ≠ .idle ∧
          t.rPhase.stepsLeft + 1 = s.rPhase.stepsLeft)) := by
  obtain ⟨t, hexec⟩ := (exec_receiveOneFrame_goesOn a s).next h.readable
  refine ⟨t, hexec, ?_⟩
  by_cases hd : s.rPhase = .dispatch
  · rw [exec_receive_dispatch a hd] at hexec
    rcases exec_frameInstr_next s t hexec with ⟨hheld, -⟩ | ⟨slots, kind, packet, rfl, -⟩
    · exact absurd (h.lockHeld.symm.trans hheld) (by decide)
    · exact .inl ⟨rfl, rfl, h.lockHeld, kind, packet, rfl⟩
  · obtain ⟨hsame, hslots, hphase⟩ := exec_receiveOneFrame_next a s t hd hexec
    have hgo : ReceiveCanGoOn t := ⟨hsame.lockHeld.trans h.lockHeld, by rw [hslots]; exact h.readable⟩
    rcases hphase with ⟨kind, ht, ho, -, hresults⟩ | ⟨hresults, hphase⟩
    · exact .inl ⟨ht, ho, hgo.lockHeld, kind, none, hresults⟩
    · refine .inr ⟨hgo, hresults, ?_⟩
      rcases hphase with ⟨hs, -⟩ | ⟨hs, ht, -⟩ | ⟨hs, ht, -⟩ | ⟨hs, ht, -⟩
      · exact absurd hs hp
      all_goals
        rw [hs, ht]
        exact ⟨by decide, rfl⟩

theorem continueReceive_ends (a : Addr) {fuel : Nat} {s : State} (h : ReceiveCanGoOn s) (hp : s.rPhase ≠ .idle)
    (hfuel : s.rPhase.stepsLeft ≤ fuel) : ∃ t, continueReceive a fuel s = .next t ∧ ReceiveEnded s t := by
  induction fuel generalizing s with
  | zero =>
    cases hs : s.rPhase with
    | idle => exact absurd hs hp
    | _ => rw [hs] at hfuel; exact absurd hfuel (by decide)
  | succ fuel ih =>
    obtain ⟨t, hexec, hstep⟩ := exec_receive_progress a h hp
    rw [continueReceive_of_exec hp hexec]
    rcases hstep with hend | ⟨hgo, hresults, ht, hleft⟩
    · exact ⟨t, continueReceive_of_idle hend.rPhase a fuel, hend⟩
    · obtain ⟨u, hu, hend⟩ := ih hgo ht (by omega)
      exact ⟨u, hu, hend.rPhase, hend.recvOp, hend.lockHeld, hresults ▸ hend.results⟩

/-- Settles O55: the dispatch answers `NotInitialized`, or leaves an invocation with the four steps it is given. -/
theorem receiveAlwaysEnds : Obligations.ReceiveAlwaysEnds := by
  intro a s hp hl hbounded hwritten
  obtain ⟨t, hcall, hend⟩ : ∃ t, callReceive a s = .next t ∧ ReceiveEnded s t := by
    cases hb : s.rxBound with
    | false =>
      refine ⟨s.finishReceive .notInitialized none, ?_, rfl, rfl, hl, _, _, rfl⟩
      rw [callReceive_of_exec (exec_receive_unbound a hp hb)]
      exact continueReceive_of_idle rfl a _
    | true =>
      obtain ⟨u, hexec, hcons, hu, -⟩ := exec_receive_bound a hp hb
      have hgo : ReceiveCanGoOn u := ⟨hcons.lockHeld.trans hl, by
        rw [hcons.slots]
        exact slotsReadable_of_written hbounded hwritten⟩
      obtain ⟨t, ht, hend⟩ := continueReceive_ends a hgo (by rw [hu]; decide) (fuel := maxReceiveSteps)
        (by rw [hu]; decide)
      exact ⟨t, (callReceive_of_exec hexec).trans ht, hend.rPhase, hend.recvOp, hend.lockHeld,
        hcons.results ▸ hend.results⟩
  obtain ⟨k, pkt, hresults⟩ := hend.results
  exact ⟨t, k, pkt, hcall, hend.rPhase, hend.recvOp, hend.lockHeld, hresults⟩

end Sys2Proof.Machine

/-! PROOFS. What each frame row does to the slot table when it goes on, and to the bytes of the slots
(spec/43_slot_controller.md section 3, spec/20_memory.md sections 1 and 4). -/

namespace Sys2Proof.Machine

/-- The slot after SLOT_APPEND of a frame with room (spec/43_slot_controller.md R145). -/
def Slot.appended (sl : Slot) (f : Fields) (payload : List Byte) : Slot :=
  { sl with
    buf := writeBytes sl.buf sl.accLen.toNat (payload.take f.len.toNat), accLen := sl.accLen + f.len.setWidth 9 }

section Rows
variable {f : Fields} {payload : List Byte} {s t : State}

/-- A step C that goes on without a resolved slot to move leaves the table: the lock is held, or RESOLVE answers
none. -/
theorem underLock_slots {fn : Addr} {branch : Nat → State → Outcome}
    (h : underLock (resolveThen fn branch) s = .next t) :
    t.slots = s.slots ∨ (s.lockHeld = false ∧ ∃ i, resolve s.slots fn = some i) := by
  cases hl : s.lockHeld with
  | true =>
    obtain rfl := Host.Outcome.next.inj ((underLock_held _ s hl).symm.trans h)
    exact .inl rfl
  | false =>
    cases hr : resolve s.slots fn with
    | none =>
      obtain rfl := Host.Outcome.next.inj ((underLock_none fn branch s hl hr).symm.trans h)
      exact .inl rfl
    | some i => exact .inr ⟨rfl, i, rfl⟩

theorem exec_startFrame_slots (h : exec (.startFrame f payload) s = .next t) :
    t.slots = s.slots ∨ (s.lockHeld = false ∧ ∃ i, resolve s.slots f.fn = some i ∧
      t.slots = s.slots.set i ((s.slot i).start f)) := by
  rcases underLock_slots h with hsame | ⟨hl, i, hr⟩
  · exact .inl hsame
  · rw [exec_startFrame_some f payload s i hl hr] at h
    obtain rfl := Host.Outcome.next.inj h
    exact .inr ⟨hl, i, hr, rfl⟩

theorem exec_endFrame_slots (h : exec (.endFrame f payload) s = .next t) :
    t.slots = s.slots ∨ (s.lockHeld = false ∧ ∃ i, resolve s.slots f.fn = some i ∧ (s.slot i).inProgress = true ∧
      (t.slots = s.slots.set i (s.slot i).abort ∨
        t.slots = s.slots.set i ((s.slot i).complete (endParam payload)))) := by
  rcases underLock_slots h with hsame | ⟨hl, i, hr⟩
  · exact .inl hsame
  · rw [exec_endFrame_some f payload s i hl hr] at h
    split at h
    next =>
      obtain rfl := Host.Outcome.next.inj h
      exact .inl rfl
    next hp =>
      refine .inr ⟨hl, i, hr, by simpa using hp, ?_⟩
      split at h
      next =>
        obtain rfl := Host.Outcome.next.inj h
        exact .inl rfl
      next =>
        split at h
        next => cases h
        next =>
          split at h <;> obtain rfl := Host.Outcome.next.inj h
          · exact .inl rfl
          · exact .inr rfl

theorem exec_dataFrame_slots {seq : Byte} (h : exec (.dataFrame seq f payload) s = .next t) :
    t.slots = s.slots ∨ (s.lockHeld = false ∧ ∃ i, resolve s.slots f.fn = some i ∧
      (s.slot i).assembles f.fn = true ∧
      ((wouldOverflow (s.slot i).accLen f.len = true ∧ t.slots = s.slots.set i (s.slot i).abort) ∨
        (wouldOverflow (s.slot i).accLen f.len = false ∧
          t.slots = s.slots.set i ((s.slot i).appended f payload)))) := by
  rcases underLock_slots h with hsame | ⟨hl, i, hr⟩
  · exact .inl hsame
  · rw [exec_dataFrame_some seq f payload s i hl hr] at h
    obtain rfl := Host.Outcome.next.inj h
    split
    next => exact .inl rfl
    next ha =>
      refine .inr ⟨hl, i, hr, by simpa using ha, ?_⟩
      split
      next ho => exact .inl ⟨ho, rfl⟩
      next ho => exact .inr ⟨by simpa using ho, rfl⟩

/-- The slots of a table in which one was written. -/
theorem State.slot_of_set {i : Nat} (hi : i < s.slots.length) {sl : Slot} (h : t.slots = s.slots.set i sl) (j : Nat) :
    t.slot j = if i = j then sl else s.slot j :=
  (State.slot_congr (s := s.setSlot i sl) h j).trans (s.slot_setSlot i j sl hi)

theorem State.readByte_congr (h : t.slots = s.slots) (j a : Nat) : t.readByte j a = s.readByte j a := by
  rw [State.readByte, State.slot_congr h, State.readByte]

theorem State.readByte_of_set {i : Nat} (hi : i < s.slots.length) {sl : Slot} (h : t.slots = s.slots.set i sl)
    (j a : Nat) : t.readByte j a = if i = j then sl.buf.read a else s.readByte j a := by
  rw [State.readByte, State.slot_of_set hi h]
  split <;> rfl

/-- A slot written back with its buffer: no byte of the table changes. -/
theorem State.readByte_of_set_buf {fn : Addr} {i : Nat} (hr : resolve s.slots fn = some i) {sl : Slot}
    (h : t.slots = s.slots.set i sl) (hbuf : sl.buf = (s.slot i).buf) (j a : Nat) :
    t.readByte j a = s.readByte j a := by
  obtain ⟨hi, -⟩ := resolve_eq_some hr
  rw [State.readByte_of_set hi h]
  split
  next hij => rw [hbuf, hij, State.readByte]
  next => rfl

end Rows

/-- Settles O43: the table is not written, or the slot is written back with its buffer. -/
theorem onlyDataStoresBytes : Obligations.OnlyDataStoresBytes := by
  intro i s t hdata hdispatch h
  cases i with
  | startFrame f payload =>
    rcases exec_startFrame_slots h with hsame | ⟨-, k, hr, hset⟩
    · exact State.readByte_congr hsame
    · exact State.readByte_of_set_buf hr hset rfl
  | endFrame f payload =>
    rcases exec_endFrame_slots h with hsame | ⟨-, k, hr, -, hset | hset⟩
    · exact State.readByte_congr hsame
    · exact State.readByte_of_set_buf hr hset rfl
    · exact State.readByte_of_set_buf hr hset rfl
  | dataFrame seq f payload => exact absurd rfl (hdata seq f payload)
  | reservedLen param f =>
    obtain rfl := Host.Outcome.next.inj h
    exact State.readByte_congr rfl
  | init tx rx =>
    rcases exec_init_cases tx rx s with ⟨-, -, hinit⟩ | hinit
    all_goals
      obtain rfl := Host.Outcome.next.inj (hinit.symm.trans h)
      exact State.readByte_congr rfl
  | sendPacket op => exact State.readByte_congr (sameReceiveSide_of_exec_sendPacket h).slots
  | receiveOneFrame a =>
    obtain ⟨-, hslots, -⟩ := exec_receiveOneFrame_next a s t (hdispatch a rfl) h
    exact State.readByte_congr hslots
  | reservedCmd =>
    obtain rfl := Host.Outcome.next.inj h
    exact State.readByte_congr rfl

/-- What SLOT_APPEND stores: the taken payload bytes at `acc_len`, nothing elsewhere. -/
theorem Slot.appended_read_outside (sl : Slot) (f : Fields) (payload : List Byte) {a : Nat}
    (h : a < sl.accLen.toNat ∨ sl.accLen.toNat + f.len.toNat ≤ a) :
    (sl.appended f payload).buf.read a = sl.buf.read a := by
  refine read_writeBytes_outside _ _ _ _ (h.imp_right fun h => ?_)
  rw [List.length_take]
  omega

theorem Slot.appended_read_inside (sl : Slot) {f : Fields} {payload : List Byte}
    (hlen : f.len.toNat ≤ payload.length) {k : Nat} (hk : k < f.len.toNat) :
    (sl.appended f payload).buf.read (sl.accLen.toNat + k) = payload[k]? := by
  rw [Slot.appended, read_writeBytes_inside _ _ _ _ (by rw [List.length_take]; omega), List.getElem?_take_of_lt hk]

/-- Settles O42: of the moves of a data frame only SLOT_APPEND touches a buffer, that of the resolved slot at its
`acc_len`. -/
theorem dataStoresOnlyAtTheSlotsEnd : Obligations.DataStoresOnlyAtTheSlotsEnd := by
  intro seq f payload s t h
  refine ⟨fun hnone => ?_, fun i hr => ⟨fun j a hout => ?_, fun hl ha hfits hlen k hk => ?_⟩⟩
  · rcases exec_dataFrame_slots h with hsame | ⟨-, i, hr, -⟩
    · exact State.readByte_congr hsame
    · exact nomatch hnone.symm.trans hr
  · rcases exec_dataFrame_slots h with hsame | ⟨-, k, hk, -, ⟨-, hset⟩ | ⟨-, hset⟩⟩
    · exact State.readByte_congr hsame j a
    · exact State.readByte_of_set_buf hk hset rfl j a
    · obtain rfl := Option.some.inj (hr.symm.trans hk)
      obtain ⟨hi, -⟩ := resolve_eq_some hr
      rw [State.readByte_of_set hi hset]
      split
      next hij =>
        subst hij
        exact Slot.appended_read_outside _ f payload (hout.resolve_left fun hne => hne rfl)
      next => rfl
  · obtain ⟨hi, -⟩ := resolve_eq_some hr
    rw [exec_dataFrame_append seq payload hl hr ha (wouldOverflow_eq_false.2 hfits)] at h
    obtain rfl := Host.Outcome.next.inj h
    rw [State.readByte_of_set hi rfl, if_pos rfl]
    exact (s.slot i).appended_read_inside hlen.ge hk

end Sys2Proof.Machine

/-! PROOFS. RESOLVE and START (spec/43_slot_controller.md sections 2 and 3). -/

namespace Sys2Proof.Machine

/-- The first scan: the lowest slot that assembles the stream. -/
theorem resolve_of_assembles {s : State} {fn : Addr} {i : Nat} (hi : i < s.slots.length)
    (ha : (s.slot i).assembles fn = true) (hlow : ∀ j, j < i → (s.slot j).assembles fn = false) :
    resolve s.slots fn = some i := by
  have hscan : s.slots.findIdx? (Slot.assembles fn) = some i := by
    refine List.findIdx?_eq_some_iff_getElem.2 ⟨hi, s.slot_eq_getElem i hi ▸ ha, fun j hj => ?_⟩
    rw [← s.slot_eq_getElem j (hj.trans hi), hlow j hj]
    decide
  rw [resolve, hscan]

/-- The second scan, where no slot assembles the stream: the lowest idle slot. -/
theorem resolve_of_idle {s : State} {fn : Addr} {i : Nat} (hi : i < s.slots.length)
    (hnone : ∀ sl ∈ s.slots, sl.assembles fn = false) (hidle : (s.slot i).inProgress = false)
    (hlow : ∀ j, j < i → (s.slot j).inProgress = true) : resolve s.slots fn = some i := by
  have hfirst : s.slots.findIdx? (Slot.assembles fn) = none :=
    List.findIdx?_eq_none_iff.2 fun sl hsl => hnone sl hsl
  rw [resolve, hfirst]
  refine List.findIdx?_eq_some_iff_getElem.2 ⟨hi, ?_, fun j hj => ?_⟩
  · rw [← s.slot_eq_getElem i hi, hidle]
    rfl
  · rw [← s.slot_eq_getElem j (hj.trans hi), hlow j hj]
    decide

/-- Settles O39: each of the two scans answers its slot, and START runs SLOT_START on it. -/
theorem startTakesTheLowestSlot : Obligations.StartTakesTheLowestSlot := by
  intro f payload s i hl hi hscan
  have hr : resolve s.slots f.fn = some i := by
    rcases hscan with ⟨ha, hlow⟩ | ⟨hnone, hidle, hlow⟩
    · exact resolve_of_assembles hi ha hlow
    · exact resolve_of_idle hi hnone hidle hlow
  exact ⟨hr, .inProgress, .inr (.inl rfl), exec_startFrame_some f payload s i hl hr⟩

/-- Settles O40: an idle slot, or one of the frame's stream, is enough for RESOLVE to answer a slot; else it answers
none, and every role ends there. -/
theorem noFreeSlotForAnyRole : Obligations.NoFreeSlotForAnyRole := by
  intro f payload seq s hl
  refine ⟨fun ⟨sl, hsl, hopen⟩ => ?_, fun hbusy => ?_⟩
  · cases hr : resolve s.slots f.fn with
    | none =>
      obtain ⟨hp, ha⟩ := resolve_eq_none.1 hr sl hsl
      rcases hopen with hidle | hfn
      · exact absurd (hidle.symm.trans hp) (by decide)
      · exact absurd (ha.symm.trans (Slot.assembles_eq_true.2 ⟨hp, hfn⟩)) (by decide)
    | some i =>
      obtain ⟨hi, -⟩ := resolve_eq_some hr
      refine ⟨_, i, exec_startFrame_some f payload s i hl hr, rfl, List.length_set, by rwa [List.length_set], ?_⟩
      rw [State.slot_afterFrame_set hi, if_pos rfl]
      exact ⟨rfl, rfl, rfl⟩
  · have hr : resolve s.slots f.fn = none := resolve_eq_none.2 fun sl hsl => by
      obtain ⟨hp, hfn⟩ := hbusy sl hsl
      exact ⟨hp, by rw [Slot.assembles, decide_eq_false hfn, Bool.and_false]⟩
    exact ⟨_, rfl, underLock_none _ _ s hl hr, underLock_none _ _ s hl hr, underLock_none _ _ s hl hr⟩

/-- Settles O41: the append branch, whose length does not wrap and which takes the whole payload. -/
theorem dataIsAppendedToItsSlot : Obligations.DataIsAppendedToItsSlot := by
  intro seq f payload s i hl hr hp hfn hfits hlen
  have hroom : wouldOverflow (s.slot i).accLen f.len = false := wouldOverflow_eq_false.2 hfits
  refine ⟨(s.slot i).accLen + f.len.setWidth 9, append_accLen_toNat _ _ hroom, ?_⟩
  rw [exec_dataFrame_append seq payload hl hr (Slot.assembles_eq_true.2 ⟨hp, hfn⟩) hroom,
    List.take_of_length_le hlen.le]
  rfl

end Sys2Proof.Machine

/-! PROOFS. END: the tests in their order (spec/44_reassembler.md R164 to R169). -/

namespace Sys2Proof.Machine

section End
variable {f : Fields} {payload : List Byte} {s : State} {i : Nat}

/-- A short END frame, or one with a wrong count, aborts its slot before the checksum is looked at. -/
theorem exec_endFrame_aborts (hl : s.lockHeld = false) (hr : resolve s.slots f.fn = some i)
    (hp : (s.slot i).inProgress = true)
    (hbad : shortEnd f.len = true ∨ countMismatch (endCount payload) (s.slot i).accLen = true) :
    exec (.endFrame f payload) s =
      .next (s.afterFrame (s.slots.set i (s.slot i).abort) .invalidFormat none) := by
  rw [exec_endFrame_some f payload s i hl hr, if_neg (by rw [hp]; decide), if_pos hbad]

/-- With the right count the checksum decides. -/
theorem exec_endFrame_counted (hl : s.lockHeld = false) (hr : resolve s.slots f.fn = some i)
    (hp : (s.slot i).inProgress = true) (h3 : 3 ≤ f.len.toNat)
    (hcount : (endCount payload).toNat = ((s.slot i).accLen.toNat + 7) / 8) {bytes : List Byte}
    (hread : bufRead (s.slot i).buf 0 (s.slot i).accLen.toNat = .ok bytes) :
    exec (.endFrame f payload) s =
      if checksumMismatch s.cfg.checksum (endChecksum payload) bytes then
        .next (s.afterFrame (s.slots.set i (s.slot i).abort) .invalidCrc none)
      else .next (s.afterFrame (s.slots.set i ((s.slot i).complete (endParam payload))) .ok
        (some ((s.slot i).packet (endParam payload) bytes))) := by
  have hlong : shortEnd f.len = false := decide_eq_false (Nat.not_lt.2 h3)
  rw [exec_endFrame_some f payload s i hl hr, if_neg (by rw [hp]; decide),
    if_neg (by rw [hlong, countMismatch_eq_false.2 hcount]; simp), hread]

theorem exec_endFrame_completes (hl : s.lockHeld = false) (hr : resolve s.slots f.fn = some i)
    (hp : (s.slot i).inProgress = true) (h3 : 3 ≤ f.len.toNat)
    (hcount : (endCount payload).toNat = ((s.slot i).accLen.toNat + 7) / 8) {bytes : List Byte}
    (hread : bufRead (s.slot i).buf 0 (s.slot i).accLen.toNat = .ok bytes)
    (hchk : endChecksum payload = checksum8 s.cfg.checksum (chkInit s.cfg.checksum) bytes) :
    exec (.endFrame f payload) s =
      .next (s.afterFrame (s.slots.set i ((s.slot i).complete (endParam payload))) .ok
        (some ((s.slot i).packet (endParam payload) bytes))) := by
  rw [exec_endFrame_counted hl hr hp h3 hcount hread, checksumMismatch_eq_false.2 hchk]
  rfl

theorem exec_endFrame_wrong_checksum (hl : s.lockHeld = false) (hr : resolve s.slots f.fn = some i)
    (hp : (s.slot i).inProgress = true) (h3 : 3 ≤ f.len.toNat)
    (hcount : (endCount payload).toNat = ((s.slot i).accLen.toNat + 7) / 8) {bytes : List Byte}
    (hread : bufRead (s.slot i).buf 0 (s.slot i).accLen.toNat = .ok bytes)
    (hchk : endChecksum payload ≠ checksum8 s.cfg.checksum (chkInit s.cfg.checksum) bytes) :
    exec (.endFrame f payload) s =
      .next (s.afterFrame (s.slots.set i (s.slot i).abort) .invalidCrc none) :=
  (exec_endFrame_counted hl hr hp h3 hcount hread).trans (if_pos (decide_eq_true hchk))

/-- The accumulated bytes of a slot, read byte by byte, are what `BufRead` answers. -/
theorem bufRead_of_readByte {bytes : List Byte} (hlen : (s.slot i).accLen.toNat ≤ 256)
    (hbytes : bytes.length = (s.slot i).accLen.toNat)
    (hread : ∀ k, k < (s.slot i).accLen.toNat → s.readByte i k = bytes[k]?) :
    bufRead (s.slot i).buf 0 (s.slot i).accLen.toNat = .ok bytes := by
  refine (bufRead_eq_ok ..).2 ⟨by rw [Nat.zero_add]; exact hlen, hbytes, fun k hk => ?_⟩
  rw [Nat.zero_add]
  exact hread k hk

/-- Every END frame for an assembling slot that can be read ends its assembly: by abort or by completion. -/
theorem exec_endFrame_frees (payload : List Byte) (hl : s.lockHeld = false) (hr : resolve s.slots f.fn = some i)
    (hp : (s.slot i).inProgress = true) (hread : SlotsReadable s.slots) :
    ∃ sl kind packet, (sl = (s.slot i).abort ∨ sl = (s.slot i).complete (endParam payload)) ∧
      exec (.endFrame f payload) s = .next (s.afterFrame (s.slots.set i sl) kind packet) := by
  obtain ⟨hi, -⟩ := resolve_eq_some hr
  obtain ⟨bytes, hbytes⟩ := hread _ (s.slot_mem i hi) hp
  rw [exec_endFrame_some f payload s i hl hr, if_neg (by rw [hp]; decide), hbytes]
  split
  next => exact ⟨_, _, _, .inl rfl, rfl⟩
  next =>
    dsimp only
    split
    next => exact ⟨_, _, _, .inl rfl, rfl⟩
    next => exact ⟨_, _, _, .inr rfl, rfl⟩

end End

/-- Settles O46: all four tests pass, and the accumulated bytes are those that were read one by one. -/
theorem endDeliversThePacket : Obligations.EndDeliversThePacket := by
  rintro f payload bytes s i _ hl hr hp h3 hlen hbytes hread hcount hchk rfl
  exact exec_endFrame_completes hl hr hp h3 hcount (bufRead_of_readByte hlen hbytes hread) hchk

/-- Settles O47: the count is looked at before the checksum. -/
theorem wrongFrameCountAborts : Obligations.WrongFrameCountAborts := by
  intro f payload s i hl hr hp _ hcount
  exact exec_endFrame_aborts hl hr hp (.inr (decide_eq_true hcount))

/-- Settles O48: the checksum of the accumulated bytes is not the frame's. -/
theorem wrongChecksumAborts : Obligations.WrongChecksumAborts := by
  intro f payload bytes s i hl hr hp h3 hlen hbytes hread hcount hchk
  exact exec_endFrame_wrong_checksum hl hr hp h3 hcount (bufRead_of_readByte hlen hbytes hread) hchk

/-- Settles O49: the first test of ON_END, and the second. -/
theorem strayAndShortEndFrames : Obligations.StrayAndShortEndFrames := by
  intro f payload s i hl hr
  refine ⟨fun hidle => ?_, fun hp hshort => exec_endFrame_aborts hl hr hp (.inl (decide_eq_true hshort))⟩
  rw [exec_endFrame_some f payload s i hl hr, if_pos hidle]
  rfl

/-- Settles O50: abort and completion both leave the slot idle and empty, and START on the slot RESOLVE answers opens
it. -/
theorem endAlwaysFreesItsSlot : Obligations.EndAlwaysFreesItsSlot := by
  intro f payload s i hinv hl hr hp
  obtain ⟨hi, -⟩ := resolve_eq_some hr
  obtain ⟨sl, kind, packet, hsl, hexec⟩ :=
    exec_endFrame_frees payload hl hr hp (slotsReadable_of_written hinv.bounded hinv.written)
  have hslot := State.slot_afterFrame_set hi sl kind packet
  refine ⟨_, hexec, ?_, ?_, fun j hj => ?_, fun g bytes hg => ?_⟩
  · rw [hslot, if_pos rfl]
    rcases hsl with rfl | rfl <;> rfl
  · rw [hslot, if_pos rfl]
    rcases hsl with rfl | rfl <;> rfl
  · rw [hslot, if_neg hj.symm]
  · obtain ⟨hi', -⟩ := resolve_eq_some hg
    refine ⟨_, exec_startFrame_some g bytes _ i hl hg, ?_, ?_, rfl⟩
    · rw [State.slot_afterFrame_set hi', if_pos rfl]
      rfl
    · rw [State.slot_afterFrame_set hi', if_pos rfl]
      rfl

/-- With CHK-SENS one changed byte always shows in the checksum: the fold is injective in that byte, and what follows
is injective in the accumulator. -/
theorem checksum8_ne_of_byte_ne {u : ChecksumUnit} (h : ChecksumSensitive u) (a : Byte) (xs ys : List Byte) {b c : Byte}
    (hne : b ≠ c) : checksum8 u a (xs ++ b :: ys) ≠ checksum8 u a (xs ++ c :: ys) := by
  intro heq
  rw [checksum8_append, checksum8_append, checksum8_cons, checksum8_cons] at heq
  exact hne (h.1 _ b c (checksum8_acc_injective u h ys _ _ heq))

/-- Settles O51: the changed byte changes no length, so the count still matches, and the checksum does not. -/
theorem flippedByteIsInvalidCrc : Obligations.FlippedByteIsInvalidCrc := by
  intro f payload xs ys b c s i hsens hl hr hp h3 hread hne hcount hchk
  obtain ⟨-, hlen, -⟩ := (bufRead_eq_ok ..).1 hread
  have hsame : (xs ++ b :: ys).length = (s.slot i).accLen.toNat := by
    rw [← hlen, List.length_append, List.length_append, List.length_cons, List.length_cons]
  rw [hsame] at hcount
  refine exec_endFrame_wrong_checksum hl hr hp h3 hcount hread ?_
  rw [endChecksum, hchk]
  exact checksum8_ne_of_byte_ne hsens _ xs ys hne

end Sys2Proof.Machine

/-! PROOFS. What step C does not look at, and the lock it lets go (spec/44_reassembler.md R176, R177, spec/20_memory.md
section 3). -/

namespace Sys2Proof.Machine

/-- ON_DATA and SLOT_APPEND read the stream and the length of a frame, no other field. -/
theorem onData_congr {f g : Fields} (hfn : f.fn = g.fn) (hlen : f.len = g.len) (payload : List Byte) :
    onData f payload = onData g payload := by
  funext i s
  simp only [onData, Slot.append, hfn, hlen]

theorem onEnd_congr {f g : Fields} (hlen : f.len = g.len) (payload : List Byte) :
    onEnd f payload = onEnd g payload := by
  funext i s
  simp only [onEnd, hlen]

/-- SLOT_START takes the three identifier fields of a frame and no other. -/
theorem onStart_congr {f g : Fields} (hfn : f.fn = g.fn) (hsrc : f.src = g.src) (hdst : f.dst = g.dst) :
    onStart f = onStart g := by
  funext i s
  simp only [onStart, Slot.start, hfn, hsrc, hdst]

/-- Settles O52: RESOLVE reads the stream, each branch only the fields named in its congruence. -/
theorem ignoredFieldsHaveNoEffect : Obligations.IgnoredFieldsHaveNoEffect := by
  intro f g p q m n s hfn hlen
  refine ⟨?_, ?_, fun hsrc hdst => ?_⟩
  · simp only [exec, execDataFrame, hfn, onData_congr hfn hlen]
  · simp only [exec, execEndFrame, hfn, onEnd_congr hlen]
  · simp only [exec, execStartFrame, hfn, onStart_congr hfn hsrc hdst]

/-- Settles O53: the last thing a step C that took the lock does is to let it go. -/
theorem lockIsFreedOnEveryPath : Obligations.LockIsFreedOnEveryPath := by
  intro i s hi
  obtain ⟨body, hbody⟩ : ∃ body, exec i s = underLock body s := by
    rcases hi with ⟨f, p, rfl⟩ | ⟨f, p, rfl⟩ | ⟨n, f, p, rfl⟩ <;> exact ⟨_, rfl⟩
  rw [hbody]
  refine ⟨fun hl t h => ?_, underLock_held body s⟩
  rcases underLock_cases body s with ⟨hheld, -⟩ | ⟨-, hrun⟩
  · exact absurd (hl.symm.trans hheld) (by decide)
  · obtain ⟨u, -, hrelease⟩ := andThen_eq_next.1 (hrun.symm.trans h)
    obtain rfl := Host.Outcome.next.inj hrelease
    rfl

end Sys2Proof.Machine

/-! PROOFS. A whole SEND_PACKET on the wire (spec/41_fragmenter.md section 3): the bytes of the packet's frames, every
call answered ok. -/

namespace Sys2Proof.Machine

theorem encodeFrame_length (p : Params) (param : Byte) (src dst fn : Addr) (payload : List Byte) :
    (encodeFrame p param src dst fn payload).length = headerBytes + payload.length := by
  rw [encodeFrame, List.length_append]
  rfl

/-- The chunk at an offset has the length of R121, where the payload operand has the declared length. -/
theorem chunkAt_length {op : SendOp} (h : op.payload.length = op.length.toNat) (off : Nat) :
    (chunkAt op off).length = chunkLen op.length.toNat off := by
  rw [chunkAt, List.length_take, List.length_drop, h, chunkLen]
  omega

/-- The bytes of START and the first `k` data frames: a header each, and the payload up to the `k`-th chunk. -/
theorem framesBeforeEnd_flatten_length {p : Params} {op : SendOp} (h : op.payload.length = op.length.toNat) (k : Nat) :
    (framesBeforeEnd p op k).flatten.length = 5 + 5 * k + min (maxFramePayload * k) op.length.toNat := by
  induction k with
  | zero => simp [startBytes, encodeFrame_length, headerBytes]
  | succ k ih =>
    rw [framesBeforeEnd_succ, List.flatten_append, List.length_append, ih, List.flatten_singleton, dataBytes,
      encodeFrame_length, chunkAt_length h]
    simp only [headerBytes, chunkLen, maxFramePayload]
    omega

theorem lastFrame_length (p : Params) (op : SendOp) : (lastFrame p op).length = 8 := rfl

/-- `L + 5 * ceil8(L) + 13` bytes (spec/41_fragmenter.md R122). -/
theorem packetFrames_flatten_length (p : Params) {op : SendOp} (h : op.payload.length = op.length.toNat) :
    (packetFrames p op).flatten.length = op.length.toNat + 5 * ceil8 op.length.toNat + 13 := by
  rw [packetFrames_eq p op h, List.flatten_append, List.length_append, framesBeforeEnd_flatten_length h,
    List.flatten_singleton, lastFrame_length]
  simp only [ceil8, maxFramePayload]
  omega

/-- Calls answered ok put their bytes on the wire whole. -/
theorem txWire_of_txCalls {s t : State} {frames : List (List Byte)}
    (h : t.txCalls = s.txCalls ++ frames.map (⟨·, .ok⟩)) : t.txWire = s.txWire ++ frames.flatten := by
  rw [State.txWire, State.txWire, h, List.flatMap_append, List.flatMap_map, List.flatMap_def (l := frames)]
  exact congrArg _ (congrArg List.flatten (List.map_id frames))

/-- Settles O26: the state after the last data frame, then END; the rest is the frame of the fragmenter's steps. -/
theorem successfulSendPutsThePacketOnTheWire : Obligations.SuccessfulSendPutsThePacketOnTheWire := by
  intro op s rest hp ho hb hL hlen ha
  obtain ⟨u, hu, hcall⟩ := callSend_of_answers_ok ⟨hp, ho, hb, hL⟩ ha
  have hcalls : ((u.transmit (lastFrame s.cfg op)).finishSend .ok).txCalls =
      s.txCalls ++ (packetFrames s.cfg op).map (⟨·, .ok⟩) := by
    rw [State.finishSend_txCalls, State.transmit_txCalls, hu.calls, State.nextTxAnswer_of_cons hu.answers,
      packetFrames_eq _ _ hlen, List.map_append, List.append_assoc]
    rfl
  refine ⟨_, hcall, hcalls, txLog_of_txCalls hcalls, ?_, ?_, rfl, rfl, ?_, hu.same.slots, hu.same.rxFifo, hu.same.fr,
    hu.same.lockHeld⟩
  · rw [txWire_of_txCalls hcalls, List.length_append, packetFrames_flatten_length _ hlen, ← Nat.add_assoc,
      ← Nat.add_assoc]
  · rw [State.finishSend_results, State.transmit_results, hu.results]
  · rw [State.finishSend_txAnswers, State.transmit_txAnswers, hu.answers, List.tail_cons]

end Sys2Proof.Machine

/-! PROOFS. A SEND_PACKET that fails at its call number `k` (spec/41_fragmenter.md R116, R125): the frames before it
were sent, of its own frame the beginning. -/

namespace Sys2Proof.Machine

theorem framesBeforeEnd_length (p : Params) (op : SendOp) (k : Nat) : (framesBeforeEnd p op k).length = k + 1 := by
  rw [framesBeforeEnd, List.length_cons, List.length_map, List.length_range]

/-- The first frames of a packet are START and as many data frames. -/
theorem framesBeforeEnd_prefix (p : Params) (op : SendOp) {j n : Nat} (h : j ≤ n) :
    framesBeforeEnd p op j <+: framesBeforeEnd p op n := by
  induction h with
  | refl => exact List.prefix_rfl
  | step _ ih =>
    rw [framesBeforeEnd_succ]
    exact ih.trans (List.prefix_append _ _)

/-- The frame that is next after START and `j` data frames. -/
def frameAfter (p : Params) (op : SendOp) (j : Nat) : List Byte :=
  if maxFramePayload * j < op.length.toNat then dataBytes p op (BitVec.ofNat 8 j) (maxFramePayload * j)
  else lastFrame p op

theorem maxFramePayload_mul_lt_iff {j n : Nat} : maxFramePayload * j < n ↔ j < ceil8 n := by
  simp only [maxFramePayload, ceil8]
  omega

/-- The packet's frames begin with START, `j` data frames and the frame after them. -/
theorem framesBeforeEnd_frameAfter_prefix (p : Params) {op : SendOp} (h : op.payload.length = op.length.toNat) {j : Nat}
    (hj : j ≤ ceil8 op.length.toNat) :
    framesBeforeEnd p op j ++ [frameAfter p op j] <+: packetFrames p op := by
  rw [packetFrames_eq p op h, frameAfter]
  split
  next hlt =>
    rw [← framesBeforeEnd_succ]
    exact (framesBeforeEnd_prefix p op (maxFramePayload_mul_lt_iff.1 hlt)).trans (List.prefix_append _ _)
  next hge =>
    obtain rfl : j = ceil8 op.length.toNat := by
      rw [maxFramePayload_mul_lt_iff] at hge
      omega
    exact List.prefix_rfl

/-- With START and `j` data frames sent, an error ends the operation at the next frame of the packet. -/
theorem SentFrames.emit_error {op : SendOp} {s u : State} {j n : Nat} {rest : List TxAnswer}
    (h : SentFrames op s j (.error n :: rest) u) (hj : j ≤ ceil8 op.length.toNat) :
    exec (.sendPacket op) u = .next ((u.transmit (frameAfter s.cfg op j)).finishSend .sendFailure) := by
  have herr : u.nextTxAnswer = .error n := State.nextTxAnswer_of_cons h.answers
  have hphase := h.phase
  rw [frameAfter]
  split
  next hlt =>
    rw [if_pos hlt] at hphase
    have hoff : u.fOff.toNat = maxFramePayload * j := h.off.trans (Nat.min_eq_left hlt.le)
    simp only [exec, execSendPacket, hphase]
    rw [Machine.emitData, if_pos (hoff ▸ hlt), emit_of_error herr, hoff, h.seq, h.same.cfg]
  next hge =>
    rw [if_neg hge] at hphase
    obtain rfl : j = ceil8 op.length.toNat := by
      rw [maxFramePayload_mul_lt_iff] at hge
      omega
    have hall : min (maxFramePayload * ceil8 op.length.toNat) op.length.toNat = op.length.toNat :=
      Nat.min_eq_right (Nat.not_lt.1 hge)
    simp only [exec, execSendPacket, hphase]
    rw [Machine.emitEnd, emit_of_error herr, h.same.cfg, h.seq, h.chk, h.param, hall, lastFrame]

/-- The operation begun in `s` ended in `t` at the frame `frame`, the frames `sent` before it answered ok. -/
structure SendFailed (s : State) (sent : List (List Byte)) (frame : List Byte) (n : Nat) (rest : List TxAnswer)
    (t : State) : Prop where
  calls : t.txCalls = s.txCalls ++ sent.map (⟨·, .ok⟩) ++ [⟨frame, .error n⟩]
  results : t.results = s.results ++ [⟨.send, .sendFailure, none⟩]
  phase : t.fPhase = .idle
  answers : t.txAnswers = rest
  slots : t.slots = s.slots

/-- An accepted operation goes on with its operands held. -/
theorem ReadyToSend.callSend {op : SendOp} {s : State} (h : ReadyToSend op s) :
    callSend op s = continueCall State.sendBusy (.sendPacket op) maxSendSteps { s with sendOp := some op } := by
  rw [Machine.callSend, h.exec, andThen_next]

/-- A step that ends the operation ends the run of its steps. -/
theorem continueSend_of_finish {op : SendOp} {s u : State} (hb : s.sendBusy = true) {k : ResultKind}
    (h : exec (.sendPacket op) s = .next (u.finishSend k)) (fuel : Nat) :
    continueCall State.sendBusy (.sendPacket op) (fuel + 1) s = .next (u.finishSend k) :=
  (continueCall_succ hb h fuel).trans (continueCall_of_not_busy (State.sendBusy_eq_false.2 ⟨rfl, rfl⟩) _ fuel)

/-- The error at the first call: EMIT_START. -/
theorem callSend_fails_at_start {op : SendOp} {s : State} (h : ReadyToSend op s) {n : Nat} {rest : List TxAnswer}
    (ha : s.txAnswers = .error n :: rest) :
    ∃ t, callSend op s = .next t ∧ SendFailed s [] (startBytes s.cfg op) n rest t := by
  have herr : ({ s with sendOp := some op } : State).nextTxAnswer = .error n := State.nextTxAnswer_of_cons ha
  have hexec := exec_sendPacket_held op op { s with sendOp := some op } h.phase rfl
  rw [emitStart, emit_of_error ((State.setupSend_nextTxAnswer _ op).trans herr)] at hexec
  refine ⟨_, h.callSend.trans (continueSend_of_finish (State.sendBusy_of_sendOp rfl) hexec 33), ?_⟩
  exact {
    calls := by
      rw [← herr, List.map_nil, List.append_nil]
      rfl
    results := rfl
    phase := rfl
    answers := congrArg List.tail ha
    slots := rfl }

/-- The error at a later call: the one after START and `j` data frames. -/
theorem callSend_fails_after {op : SendOp} {s : State} (h : ReadyToSend op s) {j n : Nat} {rest : List TxAnswer}
    (hj : j ≤ ceil8 op.length.toNat) (ha : s.txAnswers = List.replicate (j + 1) .ok ++ .error n :: rest) :
    ∃ t, callSend op s = .next t ∧ SendFailed s (framesBeforeEnd s.cfg op j) (frameAfter s.cfg op j) n rest t := by
  obtain ⟨u, hu, hcall⟩ := callSend_reaches_sentFrames h hj ha
  have hn := ceil8_le_of_fits h.fits
  have hfuel : maxSendSteps = 32 - j + 1 + (j + 1) := by
    simp only [maxSendSteps]
    omega
  refine ⟨(u.transmit (frameAfter s.cfg op j)).finishSend .sendFailure, ?_, ?_⟩
  · rw [hcall _ hfuel, continueSend_of_finish hu.sendBusy (hu.emit_error hj)]
  · exact {
      calls := by
        rw [State.finishSend_txCalls, State.transmit_txCalls, hu.calls, State.nextTxAnswer_of_cons hu.answers]
      results := by rw [State.finishSend_results, State.transmit_results, hu.results]
      phase := rfl
      answers := by rw [State.finishSend_txAnswers, State.transmit_txAnswers, hu.answers, List.tail_cons]
      slots := hu.same.slots }

/-- What a failed operation leaves on the record and on the wire, where its frames are the first of `frames`. -/
theorem SendFailed.sent_prefix {s t : State} {sent frames : List (List Byte)} {frame : List Byte} {k n : Nat}
    {rest : List TxAnswer} (h : SendFailed s sent frame n rest t) (hk : sent.length = k)
    (hframes : sent ++ [frame] <+: frames) :
    t.txCalls.map TxCall.bytes = s.txCalls.map TxCall.bytes ++ frames.take (k + 1) ∧
      t.txLog = s.txLog ++ frames.take k ∧
      t.txWire = s.txWire ++ (frames.take k).flatten ++ (frames.getD k []).take n := by
  obtain ⟨later, rfl⟩ := hframes
  subst hk
  have hsent : (sent ++ [frame] ++ later).take sent.length = sent := by
    rw [List.append_assoc, List.take_left]
  have hnext : (sent ++ [frame] ++ later).take (sent.length + 1) = sent ++ [frame] := by
    rw [← List.length_singleton (a := frame), ← List.length_append, List.take_left]
  have hframe : (sent ++ [frame] ++ later).getD sent.length [] = frame := by
    simp
  rw [hsent, hnext, hframe]
  refine ⟨?_, ?_, ?_⟩
  · rw [h.calls, List.append_assoc, List.map_append, List.map_append, List.map_map]
    exact congrArg _ (congrArg (· ++ [frame]) (List.map_id sent))
  · simp [State.txLog, h.calls, List.filter_map, Function.comp_def]
  · have hwire : sent.flatMap (fun b => TxCall.sent ⟨b, .ok⟩) = sent.flatten :=
      List.flatMap_def.trans (congrArg List.flatten (List.map_id sent))
    rw [State.txWire, State.txWire, h.calls, List.flatMap_append, List.flatMap_append, List.flatMap_map, hwire]
    simp [TxCall.sent]

/-- Settles O27: the first call is EMIT_START's, each later one the call after START and `k - 1` data frames. -/
theorem failedSendStopsAtTheFirstError : Obligations.FailedSendStopsAtTheFirstError := by
  intro op s k n rest hp ho hb hL hlen hk ha
  have hready : ReadyToSend op s := ⟨hp, ho, hb, hL⟩
  obtain ⟨t, sent, frame, hcall, hfailed, hsent, hframes⟩ : ∃ t sent frame, callSend op s = .next t ∧
      SendFailed s sent frame n rest t ∧ sent.length = k ∧ sent ++ [frame] <+: packetFrames s.cfg op := by
    cases k with
    | zero =>
      obtain ⟨t, hcall, hfailed⟩ := callSend_fails_at_start hready ha
      exact ⟨t, _, _, hcall, hfailed, rfl, List.prefix_append _ _⟩
    | succ j =>
      have hj : j ≤ ceil8 op.length.toNat := by omega
      obtain ⟨t, hcall, hfailed⟩ := callSend_fails_after hready hj ha
      exact ⟨t, _, _, hcall, hfailed, framesBeforeEnd_length .., framesBeforeEnd_frameAfter_prefix _ hlen hj⟩
  obtain ⟨hbytes, hlog, hwire⟩ := hfailed.sent_prefix hsent hframes
  exact ⟨t, hcall, hbytes, hlog, hwire, hfailed.results, hfailed.phase, hfailed.answers, hfailed.slots⟩

end Sys2Proof.Machine

/-! PROOFS. A SEND_PACKET ends whatever the transport answers (spec/70_reset_and_hazards.md section 3): each step ends
it or leaves one call less to make. -/

namespace Sys2Proof.Machine

/-- The fragmenter stands between two frames of `op`: a chunk is left to send, or END. -/
def BetweenFrames (op : SendOp) (s : State) : Prop :=
  (s.fPhase = .data ∧ s.fOff.toNat < op.length.toNat) ∨ s.fPhase = .finish

/-- How many calls are left between two frames: one per chunk, and END's. -/
def callsLeft (op : SendOp) (s : State) : Nat :=
  if s.fPhase = .data then ceil8 (op.length.toNat - s.fOff.toNat) + 1 else 1

/-- The fragmenter is idle, has delivered one result more and made at most `n` calls more. -/
structure SendEnded (n : Nat) (s t : State) : Prop where
  fPhase : t.fPhase = .idle
  sendOp : t.sendOp = none
  results : ∃ k, t.results = s.results ++ [⟨.send, k, none⟩] ∧
    (k = .ok ∨ k = .sendFailure ∨ k = .notInitialized ∨ k = .refused)
  calls : s.txCalls.length ≤ t.txCalls.length ∧ t.txCalls.length ≤ s.txCalls.length + n

/-- The end with one call. -/
theorem sendEnded_transmit (s : State) (bytes : List Byte) {k : ResultKind} (hk : k = .ok ∨ k = .sendFailure) :
    SendEnded 1 s ((s.transmit bytes).finishSend k) where
  fPhase := rfl
  sendOp := rfl
  results := ⟨k, rfl, hk.imp_right .inl⟩
  calls := by
    rw [State.finishSend_txCalls, State.transmit_txCalls, List.length_append, List.length_singleton]
    omega

/-- One call more before an operation that ends with at most `n`. -/
theorem SendEnded.after_transmit {n : Nat} {s u t : State} (h : SendEnded n u t) (hresults : u.results = s.results)
    (hcalls : u.txCalls.length = s.txCalls.length + 1) : SendEnded (n + 1) s t where
  fPhase := h.fPhase
  sendOp := h.sendOp
  results := hresults ▸ h.results
  calls := by
    obtain ⟨hmore, hmost⟩ := h.calls
    omega

/-- A call that goes on leaves one call less to make. -/
structure OneCallLess (op : SendOp) (s t : State) : Prop where
  between : BetweenFrames op t
  results : t.results = s.results
  calls : t.txCalls.length = s.txCalls.length + 1
  left : callsLeft op t + 1 = callsLeft op s

theorem transmit_calls_length (s : State) (bytes : List Byte) :
    (s.transmit bytes).txCalls.length = s.txCalls.length + 1 := by
  rw [State.transmit_txCalls, List.length_append, List.length_singleton]

/-- The offset after a chunk does not wrap. -/
theorem State.afterData_fOff_toNat (s : State) {op : SendOp} (hL : op.length.toNat ≤ maxPacketPayload) :
    (s.afterData op).fOff.toNat = s.fOff.toNat + chunkLen op.length.toNat s.fOff.toNat := by
  rw [State.afterData_fOff, BitVec.toNat_add, BitVec.toNat_ofNat]
  simp only [chunkLen, maxFramePayload, maxPacketPayload] at hL ⊢
  omega

/-- A chunk that was sent: END is left, or the next chunk, eight bytes further on. -/
theorem oneCallLess_afterData {op : SendOp} {s : State} (hp : s.fPhase = .data)
    (ho : s.fOff.toNat < op.length.toNat) (hL : op.length.toNat ≤ maxPacketPayload) (bytes : List Byte) :
    OneCallLess op s ((s.transmit bytes).afterData op) := by
  have hoff : ((s.transmit bytes).afterData op).fOff.toNat =
      s.fOff.toNat + chunkLen op.length.toNat s.fOff.toNat := State.afterData_fOff_toNat _ hL
  have hphase : ((s.transmit bytes).afterData op).fPhase =
      if s.fOff.toNat + chunkLen op.length.toNat s.fOff.toNat < op.length.toNat then .data else .finish := rfl
  have hleft : callsLeft op s = ceil8 (op.length.toNat - s.fOff.toNat) + 1 := if_pos hp
  by_cases hmore : s.fOff.toNat + chunkLen op.length.toNat s.fOff.toNat < op.length.toNat
  · rw [if_pos hmore] at hphase
    refine ⟨.inl ⟨hphase, hoff ▸ hmore⟩, rfl, transmit_calls_length s bytes, ?_⟩
    rw [hleft, callsLeft, if_pos hphase, hoff]
    simp only [chunkLen, maxFramePayload, ceil8] at hmore ⊢
    omega
  · rw [if_neg hmore] at hphase
    refine ⟨.inr hphase, rfl, transmit_calls_length s bytes, ?_⟩
    rw [hleft, callsLeft, if_neg (by rw [hphase]; decide)]
    simp only [chunkLen, maxFramePayload, ceil8] at hmore ⊢
    omega

theorem exec_send_progress {op : SendOp} {s : State} (h : BetweenFrames op s)
    (hL : op.length.toNat ≤ maxPacketPayload) :
    ∃ t, exec (.sendPacket op) s = .next t ∧ (SendEnded 1 s t ∨ OneCallLess op s t) := by
  rcases h with ⟨hp, ho⟩ | hp
  · simp only [exec, execSendPacket, hp]
    rw [emitData, if_pos ho]
    rcases emit_cases (dataBytes s.cfg op s.fSeq s.fOff.toNat) (State.afterData op) s with ⟨-, he⟩ | ⟨n, -, he⟩
    · exact ⟨_, he, .inr (oneCallLess_afterData hp ho hL _)⟩
    · exact ⟨_, he, .inl (sendEnded_transmit s _ (.inr rfl))⟩
  · simp only [exec, execSendPacket, hp]
    rw [emitEnd]
    rcases emit_cases (endBytes s.cfg op s.fSeq s.fChk s.fParam) (fun t => t.finishSend .ok) s with ⟨-, he⟩ | ⟨n, -, he⟩
    · exact ⟨_, he, .inl (sendEnded_transmit s _ (.inl rfl))⟩
    · exact ⟨_, he, .inl (sendEnded_transmit s _ (.inr rfl))⟩

theorem BetweenFrames.sendBusy {op : SendOp} {s : State} (h : BetweenFrames op s) : s.sendBusy = true := by
  rcases h with ⟨hp, -⟩ | hp <;> exact State.sendBusy_of_fPhase (by rw [hp]; decide)

theorem callsLeft_pos (op : SendOp) (s : State) : 0 < callsLeft op s := by
  rw [callsLeft]
  split <;> omega

theorem continueSend_ends {op : SendOp} {s : State} {fuel : Nat} (h : BetweenFrames op s)
    (hL : op.length.toNat ≤ maxPacketPayload) (hfuel : callsLeft op s ≤ fuel) :
    ∃ t, continueCall State.sendBusy (.sendPacket op) fuel s = .next t ∧ SendEnded (callsLeft op s) s t := by
  induction fuel generalizing s with
  | zero => exact absurd hfuel (Nat.not_le.2 (callsLeft_pos op s))
  | succ fuel ih =>
    obtain ⟨t, hexec, hend | hless⟩ := exec_send_progress h hL
    · refine ⟨t, ?_, hend.fPhase, hend.sendOp, hend.results, hend.calls.1, hend.calls.2.trans ?_⟩
      · rw [continueCall_succ h.sendBusy hexec]
        exact continueCall_of_not_busy (State.sendBusy_eq_false.2 ⟨hend.sendOp, hend.fPhase⟩) _ _
      · exact Nat.add_le_add_left (callsLeft_pos op s) _
    · have hleft := hless.left
      obtain ⟨u, hu, hend⟩ := ih hless.between (by omega)
      refine ⟨u, ?_, ?_⟩
      · rw [continueCall_succ h.sendBusy hexec, hu]
      · rw [← hleft]
        exact hend.after_transmit hless.results hless.calls

/-- EMIT_START of an accepted operation: an error ends it, else at most 33 calls are left. -/
theorem emitStart_progress {op : SendOp} (s : State) (hL : op.length.toNat ≤ maxPacketPayload) :
    ∃ t, emitStart op s = .next t ∧
      (SendEnded 1 s t ∨ (BetweenFrames op t ∧ t.results = s.results ∧
        t.txCalls.length = s.txCalls.length + 1 ∧ callsLeft op t ≤ 33)) := by
  rcases emitStart_cases op s with ⟨-, he⟩ | ⟨n, -, he⟩
  · refine ⟨_, he, .inr ⟨?_, rfl, transmit_calls_length _ _, ?_⟩⟩
    · rw [BetweenFrames, State.afterStart_fPhase, State.afterStart_fOff]
      split
      next hpos => exact .inl ⟨rfl, hpos⟩
      next => exact .inr rfl
    · have hn := ceil8_le_of_fits hL
      have hoff : (((s.setupSend op).transmit (startBytes s.cfg op)).afterStart op).fOff.toNat = 0 := rfl
      rw [callsLeft, hoff, Nat.sub_zero]
      split <;> omega
  · have hend := sendEnded_transmit (s.setupSend op) (startBytes s.cfg op) (k := .sendFailure) (.inr rfl)
    exact ⟨_, he, .inl ⟨hend.fPhase, hend.sendOp, hend.results, hend.calls⟩⟩

/-- An operation that is accepted ends with at most 34 calls. -/
theorem callSend_ends {op : SendOp} {s : State} (h : ReadyToSend op s) :
    ∃ t, callSend op s = .next t ∧ SendEnded 34 s t := by
  have hexec := exec_sendPacket_held op op { s with sendOp := some op } h.phase rfl
  have hbusy : ({ s with sendOp := some op } : State).sendBusy = true := State.sendBusy_of_sendOp rfl
  rw [h.callSend, maxSendSteps]
  obtain ⟨u, hstart, hend | ⟨hbetween, hresults, hcalls, hleft⟩⟩ :=
    emitStart_progress { s with sendOp := some op } h.fits
  · refine ⟨u, ?_, hend.fPhase, hend.sendOp, hend.results, hend.calls.1, hend.calls.2.trans (by simp)⟩
    rw [continueCall_succ hbusy (hexec.trans hstart)]
    exact continueCall_of_not_busy (State.sendBusy_eq_false.2 ⟨hend.sendOp, hend.fPhase⟩) _ _
  · obtain ⟨t, ht, hend⟩ := continueSend_ends hbetween h.fits hleft
    have hall := hend.after_transmit (s := s) hresults hcalls
    refine ⟨t, ?_, hall.fPhase, hall.sendOp, hall.results, hall.calls.1, hall.calls.2.trans (by omega)⟩
    rw [continueCall_succ hbusy (hexec.trans hstart), ht]

/-- An operation that is turned away ends with its result alone. -/
theorem callSend_turned_away {op : SendOp} {s : State} {k : ResultKind}
    (h : exec (.sendPacket op) s = .next (s.finishSend k)) : callSend op s = .next (s.finishSend k) := by
  rw [callSend, h, andThen_next]
  exact continueCall_of_not_busy (State.sendBusy_eq_false.2 ⟨rfl, rfl⟩) _ _

/-- Settles O31: turned away by one of the two tests, or accepted. -/
theorem sendAlwaysEnds : Obligations.SendAlwaysEnds := by
  intro op s hp ho
  obtain ⟨t, hcall, hend⟩ : ∃ t, callSend op s = .next t ∧ SendEnded 34 s t := by
    have hexec := exec_sendPacket_free op s hp ho
    rw [acceptSend] at hexec
    split at hexec
    next => exact ⟨_, callSend_turned_away hexec, rfl, rfl, ⟨_, rfl, by simp⟩, le_rfl, Nat.le_add_right _ _⟩
    next hb =>
      split at hexec
      next => exact ⟨_, callSend_turned_away hexec, rfl, rfl, ⟨_, rfl, by simp⟩, le_rfl, Nat.le_add_right _ _⟩
      next hL => exact callSend_ends ⟨hp, ho, by simpa using hb, Nat.not_lt.1 hL⟩
  obtain ⟨k, hresults, hk⟩ := hend.results
  exact ⟨t, k, hcall, hend.fPhase, hend.sendOp, hresults, hk, hend.calls.1, hend.calls.2⟩

end Sys2Proof.Machine

/-! PROOFS. What one step of the machine is, said once: an input, a host operation, a step of one unit, or a reset
(spec/00_scope.md R16). -/

namespace Sys2Proof.Machine

/-- `s` with the event used up and the command queue `q`. -/
def State.drawn (s : State) (q : List HostCmd) : State := { s.afterEvent with hostQueue := q }

/-- No register of the block, no result and no transmit call differs: an input, or an event that nothing answers. -/
structure SameBlock (s t : State) : Prop where
  cfg : t.cfg = s.cfg
  slots : t.slots = s.slots
  txBound : t.txBound = s.txBound
  rxBound : t.rxBound = s.rxBound
  fPhase : t.fPhase = s.fPhase
  fSeq : t.fSeq = s.fSeq
  fOff : t.fOff = s.fOff
  fChk : t.fChk = s.fChk
  fParam : t.fParam = s.fParam
  sendOp : t.sendOp = s.sendOp
  rPhase : t.rPhase = s.rPhase
  recvOp : t.recvOp = s.recvOp
  fr : t.fr = s.fr
  results : t.results = s.results
  txCalls : t.txCalls = s.txCalls

/-- What a step that goes on did, with the agent that did it. -/
inductive StepEffect (s t : State) : Prop where
  | untouched (h : SameBlock s t)
  /-- A successful INIT. -/
  | bound (q : List HostCmd) (he : s.nextEvent = .host)
      (hcommand : ∃ c cs, s.hostQueue = c :: cs ∧ decodeCommand c = .ok (.init true true))
      (hsend : s.sendOp = none ∧ s.fPhase = .idle) (hreceive : s.rPhase = .idle)
      (h : t = { s.drawn q with txBound := true, rxBound := true }.deliver .init .ok none)
  /-- A rejected INIT, or the reserved command. -/
  | answered (q : List HostCmd) (op : HostOp) (kind : ResultKind) (h : t = (s.drawn q).deliver op kind none)
  /-- A SEND_PACKET issued by the host. -/
  | sendIssued (q : List HostCmd) (op : SendOp) (hfree : s.sendOp = none ∧ s.fPhase = .idle)
      (hfits : lengthFits op.length op.payload = true) (h : acceptSend op (s.drawn q) = .next t)
  | sendStep (op : SendOp) (he : s.nextEvent = .fragmenter) (ho : s.sendOp = some op)
      (h : exec (.sendPacket op) s.afterEvent = .next t)
  /-- A RECEIVE_ONE_FRAME issued by the host, or the next step of the one in progress. -/
  | receiveStep (q : List HostCmd) (a : Addr)
      (hagent : s.rPhase = .idle ∨ (s.nextEvent = .reassembler ∧ s.recvOp = some a))
      (h : exec (.receiveOneFrame a) (s.drawn q) = .next t)
  | reset (he : s.nextEvent = .reset) (h : t = s.afterEvent.resetBlock)

theorem step_effect {s t : State} (h : step s = .next t) : StepEffect s t := by
  obtain ⟨-, rfl | ⟨he, c, cs, i, hq, hd, hfree, hexec⟩ | ⟨he, op, ho, hexec⟩ | ⟨he, a, ho, hexec⟩ | ⟨c, rfl⟩ |
    ⟨bytes, rfl⟩ | ⟨held, rfl⟩ | ⟨he, rfl⟩⟩ := step_cases h
  · exact .untouched (by constructor <;> rfl)
  · rcases decodeCommand_cases hd with ⟨tx, rx, rfl⟩ | ⟨op, rfl, hfits⟩ | ⟨a, rfl⟩ | rfl
    · obtain ⟨hsend, hreceive⟩ := State.unitFree_init.1 hfree
      rcases exec_init_cases tx rx (s.drawn cs) with ⟨rfl, rfl, hinit⟩ | hinit
      · obtain rfl := Host.Outcome.next.inj (hexec.symm.trans hinit)
        exact .bound cs he ⟨c, cs, hq, hd⟩ hsend hreceive rfl
      · obtain rfl := Host.Outcome.next.inj (hexec.symm.trans hinit)
        exact .answered cs .init .initRejected rfl
    · obtain ⟨ho, hp⟩ := State.unitFree_send.1 hfree
      exact .sendIssued cs op ⟨ho, hp⟩ hfits ((exec_sendPacket_free op (s.drawn cs) hp ho).symm.trans hexec)
    · exact .receiveStep cs a (.inl (State.unitFree_receive.1 hfree)) hexec
    · obtain rfl := Host.Outcome.next.inj hexec
      exact .answered cs .reserved .refused rfl
  · exact .sendStep op he ho hexec
  · exact .receiveStep s.hostQueue a (.inr ⟨he, ho⟩) hexec
  · exact .untouched (by constructor <;> rfl)
  · exact .untouched (by constructor <;> rfl)
  · exact .untouched (by constructor <;> rfl)
  · exact .reset he rfl

/-- A SEND_PACKET issued to a free fragmenter is turned away, or its operands are held. -/
theorem acceptSend_next {op : SendOp} {s t : State} (h : acceptSend op s = .next t) :
    (∃ kind, t = s.finishSend kind) ∨
      (s.txBound = true ∧ op.length.toNat ≤ maxPacketPayload ∧ t = { s with sendOp := some op }) := by
  rw [acceptSend] at h
  split at h
  next =>
    obtain rfl := Host.Outcome.next.inj h
    exact .inl ⟨_, rfl⟩
  next hb =>
    split at h
    next =>
      obtain rfl := Host.Outcome.next.inj h
      exact .inl ⟨_, rfl⟩
    next hL =>
      obtain rfl := Host.Outcome.next.inj h
      exact .inr ⟨by simpa using hb, Nat.not_lt.1 hL, rfl⟩

theorem sendStep_of_exec_sendPacket {op : SendOp} {s t : State} (h : exec (.sendPacket op) s = .next t) :
    SendStep s t := by
  obtain ⟨t', ht', hstep⟩ := exec_sendPacket_frame op s
  obtain rfl : t' = t := Host.Outcome.next.inj (ht'.symm.trans h)
  exact hstep

/-! The effect on one field at a time. -/

theorem step_cfg {s t : State} (h : step s = .next t) : t.cfg = s.cfg := by
  cases step_effect h with
  | untouched h => exact h.cfg
  | bound q _ _ _ _ h => rw [h]; rfl
  | answered q op kind h => rw [h]; rfl
  | sendIssued q op _ _ h => rcases acceptSend_next h with ⟨kind, rfl⟩ | ⟨-, -, rfl⟩ <;> rfl
  | sendStep op _ _ h => exact (sameReceiveSide_of_exec_sendPacket h).cfg
  | receiveStep q a _ h => exact (exec_receiveOneFrame_cases a _ t h).1.cfg
  | reset _ h => rw [h]; rfl

/-- The binding bits stay but for a reset and a successful INIT. -/
theorem step_binding {s t : State} (h : step s = .next t) :
    (t.txBound = s.txBound ∧ t.rxBound = s.rxBound) ∨
      (s.nextEvent = .reset ∧ t.txBound = false ∧ t.rxBound = false) ∨
      (s.nextEvent = .host ∧ t.txBound = true ∧ t.rxBound = true ∧
        ∃ c cs, s.hostQueue = c :: cs ∧ decodeCommand c = .ok (.init true true)) := by
  cases step_effect h with
  | untouched h => exact .inl ⟨h.txBound, h.rxBound⟩
  | bound q he hcommand _ _ h =>
    subst h
    exact .inr (.inr ⟨he, rfl, rfl, hcommand⟩)
  | answered q op kind h => rw [h]; exact .inl ⟨rfl, rfl⟩
  | sendIssued q op _ _ h => rcases acceptSend_next h with ⟨kind, rfl⟩ | ⟨-, -, rfl⟩ <;> exact .inl ⟨rfl, rfl⟩
  | sendStep op _ _ h =>
    have hsame := sameReceiveSide_of_exec_sendPacket h
    exact .inl ⟨hsame.txBound, hsame.rxBound⟩
  | receiveStep q a _ h =>
    have hsame := (exec_receiveOneFrame_cases a _ t h).1
    exact .inl ⟨hsame.txBound, hsame.rxBound⟩
  | reset he h => rw [h]; exact .inr (.inl ⟨he, rfl, rfl⟩)

/-- Settles O20: the two changes of `step_binding`. -/
theorem bindingChangesOnlyByInitAndReset : Obligations.BindingChangesOnlyByInitAndReset := by
  intro s t h hchange
  refine (step_binding h).resolve_left fun ⟨htx, hrx⟩ => ?_
  exact hchange.elim (fun hne => hne htx) (fun hne => hne hrx)

/-- Settles O32: of all effects only the fragmenter's step makes a call. -/
theorem oneFramePerTransmitCall : Obligations.OneFramePerTransmitCall := by
  intro s t h hcalls
  cases step_effect h with
  | untouched h => exact absurd h.txCalls hcalls
  | bound q _ _ _ _ h => exact absurd (congrArg State.txCalls h) hcalls
  | answered q op kind h => exact absurd (congrArg State.txCalls h) hcalls
  | sendIssued q op _ _ h => rcases acceptSend_next h with ⟨kind, rfl⟩ | ⟨-, -, rfl⟩ <;> exact absurd rfl hcalls
  | sendStep op he _ h =>
    obtain ⟨bytes, hcall, hmin, hmax⟩ := (sendStep_of_exec_sendPacket h).txCalls.resolve_left hcalls
    exact ⟨he, bytes, _, hcall, hmin, hmax⟩
  | receiveStep q a _ h => exact absurd (exec_receiveOneFrame_cases a _ t h).1.txCalls hcalls
  | reset _ h => exact absurd (congrArg State.txCalls h) hcalls

/-- Settles O60: every effect appends at most one result to the record. -/
theorem resultsAreDeliveredOnce : Obligations.ResultsAreDeliveredOnce := by
  intro s t h
  cases step_effect h with
  | untouched h => exact .inl h.results
  | bound q _ _ _ _ h => rw [h]; exact .inr ⟨_, rfl⟩
  | answered q op kind h => rw [h]; exact .inr ⟨_, rfl⟩
  | sendIssued q op _ _ h =>
    rcases acceptSend_next h with ⟨kind, rfl⟩ | ⟨-, -, rfl⟩
    · exact .inr ⟨_, rfl⟩
    · exact .inl rfl
  | sendStep op _ _ h => exact (sendStep_of_exec_sendPacket h).results.imp_right fun ⟨_, hr⟩ => ⟨_, hr⟩
  | receiveStep q a _ h => exact (exec_receiveOneFrame_cases a _ t h).2.2.imp_right fun ⟨r, hr, _⟩ => ⟨r, hr⟩
  | reset _ h => rw [h]; exact .inl rfl

end Sys2Proof.Machine

/-! PROOFS. What one step does to the slot table (spec/10_state.md section 2, spec/43_slot_controller.md section 3). -/

namespace Sys2Proof.Machine

/-- What step C makes of the resolved slot, with the role that does it. -/
inductive FrameMove (p : Params) (fr : FrameReg) (sl : Slot) : Slot → Prop where
  | start : FrameMove p fr sl (sl.start fr.fields)
  | abort (hp : sl.inProgress = true)
      (hcause : role p fr.param = .finish ∨
        (role p fr.param = .data ∧ wouldOverflow sl.accLen fr.fields.len = true)) : FrameMove p fr sl sl.abort
  | complete (param : Byte) (hrole : role p fr.param = .finish) : FrameMove p fr sl (sl.complete param)
  | append (ha : sl.assembles fr.fields.fn = true) (ho : wouldOverflow sl.accLen fr.fields.len = false) :
      FrameMove p fr sl (sl.appended fr.fields fr.payload)

/-- Step C took the lock and moved the slot that RESOLVE answered. -/
def MovesSlot (s t : State) : Prop :=
  s.lockHeld = false ∧ ∃ i sl, resolve s.slots s.fr.fields.fn = some i ∧ FrameMove s.cfg s.fr (s.slot i) sl ∧
    t.slots = s.slots.set i sl

theorem exec_frameInstr_slots {s t : State} (h : exec (frameInstr s.cfg s.fr) s = .next t) :
    t.slots = s.slots ∨ MovesSlot s t := by
  by_cases hlen : s.fr.fields.len.toNat ≤ maxFramePayload
  · cases hrole : role s.cfg s.fr.param with
    | start =>
      rw [frameInstr_of_role_start hlen hrole] at h
      rcases exec_startFrame_slots h with hsame | ⟨hl, i, hr, hset⟩
      · exact .inl hsame
      · exact .inr ⟨hl, i, _, hr, .start, hset⟩
    | finish =>
      rw [frameInstr_of_role_finish hlen hrole] at h
      rcases exec_endFrame_slots h with hsame | ⟨hl, i, hr, hp, hset | hset⟩
      · exact .inl hsame
      · exact .inr ⟨hl, i, _, hr, .abort hp (.inl hrole), hset⟩
      · exact .inr ⟨hl, i, _, hr, .complete _ hrole, hset⟩
    | data =>
      rw [frameInstr_of_role_data hlen hrole] at h
      rcases exec_dataFrame_slots h with hsame | ⟨hl, i, hr, ha, ⟨ho, hset⟩ | ⟨ho, hset⟩⟩
      · exact .inl hsame
      · exact .inr ⟨hl, i, _, hr, .abort (Slot.assembles_eq_true.1 ha).1 (.inr ⟨hrole, ho⟩), hset⟩
      · exact .inr ⟨hl, i, _, hr, .append ha ho, hset⟩
  · rw [frameInstr, if_pos (Nat.not_le.1 hlen)] at h
    obtain rfl := Host.Outcome.next.inj h
    exact .inl rfl

/-- The table is written by reset and by step C of the reassembler, nowhere else. -/
theorem step_slots {s t : State} (h : step s = .next t) :
    t.slots = s.slots ∨
      (s.nextEvent = .reset ∧ t.slots = List.replicate s.slots.length Slot.reset) ∨
      (s.nextEvent = .reassembler ∧ s.rPhase = .dispatch ∧ s.recvOp.isSome = true ∧ MovesSlot s t) := by
  cases step_effect h with
  | untouched h => exact .inl h.slots
  | bound q _ _ _ _ h => rw [h]; exact .inl rfl
  | answered q op kind h => rw [h]; exact .inl rfl
  | sendIssued q op _ _ h => rcases acceptSend_next h with ⟨kind, rfl⟩ | ⟨-, -, rfl⟩ <;> exact .inl rfl
  | sendStep op _ _ h => exact .inl (sameReceiveSide_of_exec_sendPacket h).slots
  | receiveStep q a hagent h =>
    by_cases hp : s.rPhase = .dispatch
    · rcases hagent with hidle | ⟨he, ho⟩
      · exact nomatch hp.symm.trans hidle
      · rw [exec_receive_dispatch (s := s.drawn q) a hp] at h
        exact (exec_frameInstr_slots h).imp_right fun hmove => .inr ⟨he, hp, by rw [ho]; rfl, hmove⟩
    · exact .inl (exec_receiveOneFrame_next a (s.drawn q) t hp h).2.1
  | reset he h => rw [h]; exact .inr (.inl ⟨he, rfl⟩)

/-- Settles O59: the two writers of `step_slots`. -/
theorem slotTableIsWrittenOnlyInStepC : Obligations.SlotTableIsWrittenOnlyInStepC := by
  intro s t h hchange
  rcases step_slots h with hsame | ⟨he, -⟩ | ⟨he, hp, ho, hl, -⟩
  · exact absurd hsame hchange
  · exact .inl he
  · exact .inr ⟨he, hp, hl, ho⟩

theorem step_slots_length {s t : State} (h : step s = .next t) : t.slots.length = s.slots.length := by
  rcases step_slots h with hsame | ⟨-, hreset⟩ | ⟨-, -, -, -, i, sl, -, -, hset⟩
  · rw [hsame]
  · rw [hreset, List.length_replicate]
  · rw [hset, List.length_set]

/-- Settles O17: no effect writes `cfg`, and the table is only ever copied or set. -/
theorem parametersNeverChange : Obligations.ParametersNeverChange :=
  fun _ _ h => ⟨step_cfg h, step_slots_length h⟩

/-- Settles O58: of the moves of the slot only abort and completion end its assembly, and each names its frame. -/
theorem assemblyEndsOnlyByItsOwnFrames : Obligations.AssemblyEndsOnlyByItsOwnFrames := by
  intro s t i h hi hp hidle
  have hcontra {sl : Slot} (hsl : t.slot i = sl) (hbusy : sl.inProgress = true) : False :=
    absurd (hidle.symm.trans (hsl ▸ hbusy)) (by decide)
  rcases step_slots h with hsame | ⟨he, -⟩ | ⟨he, hphase, -, -, k, sl, hr, hmove, hset⟩
  · exact (hcontra (State.slot_congr hsame i) hp).elim
  · exact .inl he
  · obtain ⟨hk, -⟩ := resolve_eq_some hr
    have hslot := State.slot_of_set hk hset i
    by_cases hki : k = i
    · subst hki
      rw [if_pos rfl] at hslot
      refine .inr ⟨he, hphase, hr, ?_⟩
      cases hmove with
      | start => exact (hcontra hslot rfl).elim
      | abort _ hcause => exact hcause.imp_right (And.imp_right wouldOverflow_eq_true.1)
      | complete _ hrole => exact .inl hrole
      | append => exact (hcontra hslot hp).elim
    · rw [if_neg hki] at hslot
      exact (hcontra hslot hp).elim

/-! Properties of single slots. -/

/-- A property of single slots that a slot after reset has, and that every move of step C keeps, is kept by every
step. -/
theorem step_forall_slots {P : Slot → Prop} {s t : State} (h : step s = .next t) (hreset : P Slot.reset)
    (hmove : ∀ sl sl', s.rPhase = .dispatch → FrameMove s.cfg s.fr sl sl' → P sl → P sl') (hs : ∀ sl ∈ s.slots, P sl) :
    ∀ sl ∈ t.slots, P sl := by
  intro sl hsl
  rcases step_slots h with hsame | ⟨-, hreset'⟩ | ⟨-, hphase, -, -, i, sl', hr, hframe, hset⟩
  · exact hs sl (hsame ▸ hsl)
  · rw [hreset'] at hsl
    rwa [List.eq_of_mem_replicate hsl]
  · obtain ⟨hi, -⟩ := resolve_eq_some hr
    rw [hset] at hsl
    rcases List.mem_or_eq_of_mem_set hsl with hold | rfl
    · exact hs sl hold
    · exact hmove _ _ hphase hframe (hs _ (s.slot_mem i hi))

theorem Slot.appended_accLen_toNat {sl : Slot} {f : Fields} (payload : List Byte)
    (ho : wouldOverflow sl.accLen f.len = false) :
    (sl.appended f payload).accLen.toNat = sl.accLen.toNat + f.len.toNat :=
  append_accLen_toNat sl.accLen f.len ho

theorem step_slotsBounded {s t : State} (h : step s = .next t) (hs : SlotsBounded s) : SlotsBounded t := by
  refine step_forall_slots h (by decide) (fun sl sl' _ hmove hsl => ?_) hs
  cases hmove with
  | append _ ho => rw [Slot.appended_accLen_toNat _ ho]; exact wouldOverflow_eq_false.1 ho
  | _ => exact Nat.zero_le _

theorem step_idleSlotsEmpty {s t : State} (h : step s = .next t) (hs : IdleSlotsEmpty s) : IdleSlotsEmpty t := by
  refine step_forall_slots (P := fun sl => sl.tag = .idle → sl.accLen = 0) h (fun _ => rfl)
    (fun sl sl' _ hmove _ hidle => ?_) hs
  cases hmove with
  | append ha _ =>
    have hp := Slot.inProgress_eq_true.1 (Slot.assembles_eq_true.1 ha).1
    exact nomatch hp.symm.trans hidle
  | _ => rfl

theorem step_buffersCanonical {s t : State} (h : step s = .next t) (hs : BuffersCanonical s) : BuffersCanonical t := by
  refine step_forall_slots (P := fun sl => sl.buf.wf = true ∧ sl.buf.bounded = true) h (by decide)
    (fun sl sl' _ hmove ⟨hwf, hbounded⟩ => ?_) hs
  cases hmove with
  | append _ ho =>
    have hroom := wouldOverflow_eq_false.1 ho
    refine ⟨writeBytes_wf _ _ _ hwf, writeBytes_bounded _ _ _ ?_ hbounded⟩
    rw [List.length_take]
    omega
  | _ => exact ⟨hwf, hbounded⟩

/-- Settles O15: each is a property of single slots. -/
theorem slotRangesAndBuffersAreKept : Obligations.SlotRangesAndBuffersAreKept :=
  fun _ _ h => ⟨step_slotsBounded h, step_idleSlotsEmpty h, step_buffersCanonical h⟩

/-- The written bytes, for a frame whose payload is as long as it declares: SLOT_APPEND writes what it counts. -/
theorem step_buffersWritten {s t : State} (h : step s = .next t) (hr : ReceiveConsistent s) (hs : BuffersWritten s) :
    BuffersWritten t := by
  refine step_forall_slots
    (P := fun sl => sl.inProgress = true → ∀ a, a < sl.accLen.toNat → (sl.buf.read a).isSome = true) h
    (fun hp => nomatch hp) (fun sl sl' hphase hmove hsl hp a ha => ?_) hs
  obtain ⟨-, -, hframe, -⟩ := hr
  obtain ⟨-, hpayload⟩ := hframe (.inr hphase)
  cases hmove with
  | start => exact absurd ha (Nat.not_lt_zero a)
  | abort => exact nomatch hp
  | complete => exact nomatch hp
  | append hassembles ho =>
    rw [Slot.appended_accLen_toNat _ ho] at ha
    by_cases hold : a < sl.accLen.toNat
    · rw [Slot.appended_read_outside sl _ _ (.inl hold)]
      exact hsl (Slot.assembles_eq_true.1 hassembles).1 a hold
    · obtain ⟨k, rfl⟩ := Nat.exists_eq_add_of_le (Nat.not_lt.1 hold)
      have hk : k < s.fr.fields.len.toNat := by omega
      rw [Slot.appended_read_inside sl hpayload.ge hk, List.getElem?_eq_getElem (by omega)]
      rfl

/-! INV-UNIQ. -/

/-- A slot that assembles after a move assembled the same stream before, or took the frame's, which no slot had. -/
theorem FrameMove.stream {p : Params} {fr : FrameReg} {s : State} {i : Nat} {sl : Slot}
    (hr : resolve s.slots fr.fields.fn = some i) (h : FrameMove p fr (s.slot i) sl) (hp : sl.inProgress = true) :
    ((s.slot i).inProgress = true ∧ sl.fn = (s.slot i).fn) ∨
      ∀ sl' ∈ s.slots, sl'.inProgress = true → sl'.fn ≠ sl.fn := by
  cases h with
  | start =>
    obtain ⟨hi, ⟨ha, -⟩ | ⟨hnone, -⟩⟩ := resolve_eq_some hr
    · rw [← s.slot_eq_getElem i hi] at ha
      obtain ⟨hbusy, hfn⟩ := Slot.assembles_eq_true.1 ha
      exact .inl ⟨hbusy, hfn.symm⟩
    · refine .inr fun sl' hsl' hbusy hfn => ?_
      exact absurd ((hnone sl' hsl').symm.trans (Slot.assembles_eq_true.2 ⟨hbusy, hfn⟩)) (by decide)
  | abort => exact nomatch hp
  | complete => exact nomatch hp
  | append => exact .inl ⟨hp, rfl⟩

/-- One slot written so that it repeats no other's stream. -/
theorem slotsUnique_of_set {s t : State} (hs : SlotsUnique s) {i : Nat} {sl : Slot} (hi : i < s.slots.length)
    (hset : t.slots = s.slots.set i sl)
    (hnew : sl.inProgress = true → ∀ j, j < s.slots.length → j ≠ i → (s.slot j).inProgress = true →
      (s.slot j).fn ≠ sl.fn) : SlotsUnique t := by
  intro j k hj hk hpj hpk hfn
  rw [hset, List.length_set] at hj hk
  rw [State.slot_of_set hi hset] at hpj hpk hfn
  rw [State.slot_of_set hi hset k] at hfn
  by_cases hij : i = j <;> by_cases hik : i = k
  · exact hij.symm.trans hik
  · rw [if_pos hij] at hpj hfn
    rw [if_neg hik] at hpk hfn
    exact absurd hfn.symm (hnew hpj k hk (Ne.symm hik) hpk)
  · rw [if_neg hij] at hpj hfn
    rw [if_pos hik] at hpk hfn
    exact absurd hfn (hnew hpk j hj (Ne.symm hij) hpj)
  · rw [if_neg hij] at hpj hfn
    rw [if_neg hik] at hpk hfn
    exact hs j k hj hk hpj hpk hfn

theorem step_slotsUnique {s t : State} (h : step s = .next t) (hs : SlotsUnique s) : SlotsUnique t := by
  rcases step_slots h with hsame | ⟨-, hreset⟩ | ⟨-, -, -, -, i, sl, hr, hmove, hset⟩
  · intro j k hj hk
    rw [State.slot_congr hsame, State.slot_congr hsame]
    exact hs j k (hsame ▸ hj) (hsame ▸ hk)
  · exact slotsUnique_of_idle fun sl hsl => inProgress_of_mem_replicate_reset (hreset ▸ hsl)
  · obtain ⟨hi, -⟩ := resolve_eq_some hr
    refine slotsUnique_of_set hs hi hset fun hp j hj hji hpj hfn => ?_
    rcases hmove.stream hr hp with ⟨hbusy, hsame⟩ | hnone
    · exact hji (hs j i hj hi hpj hbusy (hfn.trans hsame))
    · exact hnone _ (s.slot_mem j hj) hpj hfn

/-- Settles O14: the reset state assembles nothing, and a stream is only taken by a slot where no other has it. -/
theorem streamsStayUnique : Obligations.StreamsStayUnique :=
  ⟨slotsUnique_of_idle fun _ => inProgress_of_mem_replicate_reset, fun _ _ hs h => step_slotsUnique h hs⟩

end Sys2Proof.Machine

/-! PROOFS. The invariant of the two units (spec/41_fragmenter.md R120, R121, spec/44_reassembler.md R161). -/

namespace Sys2Proof.Machine

/-! The send side. -/

/-- The registers of the fragmenter, and what its invariant reads beside them, are the same. -/
structure SameFragmenter (s t : State) : Prop where
  cfg : t.cfg = s.cfg
  txBound : t.txBound = s.txBound
  fPhase : t.fPhase = s.fPhase
  fSeq : t.fSeq = s.fSeq
  fOff : t.fOff = s.fOff
  fChk : t.fChk = s.fChk
  fParam : t.fParam = s.fParam
  sendOp : t.sendOp = s.sendOp

theorem SameBlock.sameFragmenter {s t : State} (h : SameBlock s t) : SameFragmenter s t :=
  ⟨h.cfg, h.txBound, h.fPhase, h.fSeq, h.fOff, h.fChk, h.fParam, h.sendOp⟩

theorem SameSendSide.sameFragmenter {s t : State} (h : SameSendSide s t) : SameFragmenter s t :=
  ⟨h.cfg, h.txBound, h.fPhase, h.fSeq, h.fOff, h.fChk, h.fParam, h.sendOp⟩

theorem SendConsistent.congr {s t : State} (hs : SendConsistent s) (h : SameFragmenter s t) : SendConsistent t := by
  unfold SendConsistent SendAccepted SendProgress at hs ⊢
  rwa [h.cfg, h.txBound, h.fPhase, h.fSeq, h.fOff, h.fChk, h.fParam, h.sendOp]

theorem sendConsistent_of_free {s : State} (ho : s.sendOp = none) (hp : s.fPhase = .idle) : SendConsistent s :=
  ⟨fun _ h => (nomatch ho.symm.trans h), by rw [hp]; decide, fun h => absurd hp h⟩

theorem sendConsistent_finishSend (s : State) (kind : ResultKind) : SendConsistent (s.finishSend kind) :=
  sendConsistent_of_free rfl rfl

theorem SendAccepted.held {s : State} {op : SendOp} (h : SendAccepted s op) : s.sendOp = some op := h.1

theorem SendAccepted.fits {s : State} {op : SendOp} (h : SendAccepted s op) : op.length.toNat ≤ maxPacketPayload := by
  obtain ⟨-, -, hL, -⟩ := h
  exact hL

theorem SendProgress.off_lt {s : State} {op : SendOp} (h : SendProgress s op) (hp : s.fPhase = .data) :
    s.fOff.toNat < op.length.toNat := by
  obtain ⟨-, -, -, -, -, hdata, -⟩ := h
  exact hdata hp

/-- A fragmenter that holds an accepted operation and stands between two frames. -/
theorem sendConsistent_of_progress {s : State} {op : SendOp} (hacc : SendAccepted s op) (hprog : SendProgress s op)
    (hp : s.fPhase = .data ∨ s.fPhase = .finish) : SendConsistent s := by
  refine ⟨fun op' h => ?_, ?_, fun _ => ⟨op, hacc.held, hprog⟩⟩
  · obtain rfl := Option.some.inj (hacc.held.symm.trans h)
    exact hacc
  · rcases hp with hp | hp <;> rw [hp] <;> decide

/-- The two tests of the issue: what passes them is accepted. -/
theorem sendConsistent_acceptSend {op : SendOp} {s t : State} (hp : s.fPhase = .idle)
    (hfits : lengthFits op.length op.payload = true) (h : acceptSend op s = .next t) : SendConsistent t := by
  rcases acceptSend_next h with ⟨kind, rfl⟩ | ⟨hb, hL, rfl⟩
  · exact sendConsistent_finishSend s kind
  · have hlen : op.payload.length = op.length.toNat := by
      rw [lengthFits, Bool.or_eq_true, decide_eq_true_eq, decide_eq_true_eq] at hfits
      exact hfits.resolve_left (Nat.not_lt.2 hL)
    refine ⟨fun op' ho => ?_, ?_, fun hne => absurd hp hne⟩
    · obtain rfl := Option.some.inj ho
      exact ⟨rfl, hb, hL, hlen⟩
    · show s.fPhase ≠ .start
      rw [hp]
      decide

/-- EMIT_START begins the loop: nothing is folded yet, at offset 0. -/
theorem sendConsistent_emitStart {op : SendOp} {s t : State} (hacc : SendAccepted s op)
    (h : emitStart op s = .next t) : SendConsistent t := by
  rcases emitStart_cases op s with ⟨-, he⟩ | ⟨n, -, he⟩
  · obtain rfl := Host.Outcome.next.inj (he.symm.trans h)
    refine sendConsistent_of_progress (op := op) hacc ⟨rfl, ?_, ?_, Nat.zero_le _, rfl, fun hp => ?_, fun hp => ?_⟩ ?_
    · exact (Nat.zero_min _).symm
    · show (0 : Byte).toNat = ceil8 (0 : Len).toNat
      decide
    · rw [State.afterStart_fPhase] at hp
      exact Decidable.byContradiction fun h0 => nomatch (if_neg h0).symm.trans hp
    · rw [State.afterStart_fPhase] at hp
      by_cases h0 : 0 < op.length.toNat
      · exact nomatch (if_pos h0).symm.trans hp
      · exact (Nat.eq_zero_of_not_pos h0).symm
    · rw [State.afterStart_fPhase]
      split
      next => exact .inl rfl
      next => exact .inr rfl
  · obtain rfl := Host.Outcome.next.inj (he.symm.trans h)
    exact sendConsistent_finishSend _ _

/-- EMIT_DATA brings the loop one chunk on: what is folded is what lies before the offset. -/
theorem sendProgress_afterData {op : SendOp} {s : State} (hL : op.length.toNat ≤ maxPacketPayload)
    (hprog : SendProgress s op) (hp : s.fPhase = .data) (bytes : List Byte) :
    SendProgress ((s.transmit bytes).afterData op) op := by
  obtain ⟨hparam, hoff, hseq, -, hchk, hdata, -⟩ := hprog
  have hlt := hdata hp
  have hoff' : ((s.transmit bytes).afterData op).fOff.toNat =
      s.fOff.toNat + chunkLen op.length.toNat s.fOff.toNat := State.afterData_fOff_toNat _ hL
  have hseq' : ((s.transmit bytes).afterData op).fSeq.toNat = s.fSeq.toNat + 1 := by
    rw [State.afterData_fSeq, State.transmit_fSeq, BitVec.toNat_add]
    simp only [maxPacketPayload] at hL
    have h1 : (1 : Byte).toNat = 1 := rfl
    omega
  have hphase : ((s.transmit bytes).afterData op).fPhase =
      if s.fOff.toNat + chunkLen op.length.toNat s.fOff.toNat < op.length.toNat then .data else .finish := rfl
  refine ⟨hparam, ?_, ?_, ?_, ?_, fun h => ?_, fun h => ?_⟩
  · rw [hoff', hseq', chunkLen]
    simp only [maxFramePayload]
    omega
  · rw [hoff', hseq', chunkLen]
    simp only [maxFramePayload, ceil8] at hseq ⊢
    omega
  · rw [hseq']
    simp only [maxPacketPayload] at hL
    omega
  · rw [hoff', State.afterData_fChk, State.transmit_fChk, State.transmit_fOff, State.transmit_cfg, hchk,
      ← checksum8_append, take_append_chunkAt]
    rfl
  · rw [hoff']
    exact Decidable.byContradiction fun hge => nomatch (if_neg hge).symm.trans (hphase.symm.trans h)
  · have hge : ¬ s.fOff.toNat + chunkLen op.length.toNat s.fOff.toNat < op.length.toNat := fun hmore =>
      nomatch (if_pos hmore).symm.trans (hphase.symm.trans h)
    rw [hoff']
    simp only [chunkLen, maxFramePayload] at hge ⊢
    omega

theorem sendConsistent_emitData {op : SendOp} {s t : State} (hacc : SendAccepted s op) (hprog : SendProgress s op)
    (hp : s.fPhase = .data) (h : emitData op s = .next t) : SendConsistent t := by
  rw [emitData, if_pos (hprog.off_lt hp)] at h
  rcases emit_cases (dataBytes s.cfg op s.fSeq s.fOff.toNat) (State.afterData op) s with ⟨-, he⟩ | ⟨n, -, he⟩
  · obtain rfl := Host.Outcome.next.inj (he.symm.trans h)
    refine sendConsistent_of_progress (op := op) hacc (sendProgress_afterData hacc.fits hprog hp _) ?_
    rw [State.afterData_fPhase]
    split
    next => exact .inl rfl
    next => exact .inr rfl
  · obtain rfl := Host.Outcome.next.inj (he.symm.trans h)
    exact sendConsistent_finishSend _ _

/-- EMIT_END ends the operation with either answer. -/
theorem sendConsistent_emitEnd {op : SendOp} {s t : State} (h : emitEnd op s = .next t) : SendConsistent t := by
  rcases emit_cases (endBytes s.cfg op s.fSeq s.fChk s.fParam) (fun t => t.finishSend .ok) s with ⟨-, he⟩ | ⟨n, -, he⟩
  all_goals
    obtain rfl := Host.Outcome.next.inj (he.symm.trans h)
    exact sendConsistent_finishSend _ _

/-- A step of the fragmenter on the operation it holds. -/
theorem sendConsistent_exec_sendPacket {op : SendOp} {s t : State} (hs : SendConsistent s) (ho : s.sendOp = some op)
    (h : exec (.sendPacket op) s = .next t) : SendConsistent t := by
  obtain ⟨haccepted, hstart, hprogress⟩ := hs
  have hacc := haccepted op ho
  cases hp : s.fPhase with
  | idle =>
    rw [exec_sendPacket_held op op s hp ho] at h
    exact sendConsistent_emitStart hacc h
  | start => exact absurd hp hstart
  | data =>
    obtain ⟨op', ho', hprog⟩ := hprogress (by rw [hp]; decide)
    obtain rfl := Option.some.inj (ho.symm.trans ho')
    simp only [exec, execSendPacket, hp] at h
    exact sendConsistent_emitData hacc hprog hp h
  | finish =>
    simp only [exec, execSendPacket, hp] at h
    exact sendConsistent_emitEnd h

theorem step_sendConsistent {s t : State} (h : step s = .next t) (hs : SendConsistent s) : SendConsistent t := by
  cases step_effect h with
  | untouched h => exact hs.congr h.sameFragmenter
  | bound q _ _ hsend _ h =>
    subst h
    exact sendConsistent_of_free hsend.1 hsend.2
  | answered q op kind h =>
    subst h
    exact hs.congr (by constructor <;> rfl)
  | sendIssued q op hfree hfits h => exact sendConsistent_acceptSend (s := s.drawn q) hfree.2 hfits h
  | sendStep op _ ho h =>
    exact sendConsistent_exec_sendPacket (s := s.afterEvent) (hs.congr (by constructor <;> rfl)) ho h
  | receiveStep q a _ h =>
    have hdrawn : SendConsistent (s.drawn q) := hs.congr (by constructor <;> rfl)
    exact hdrawn.congr (exec_receiveOneFrame_cases a _ t h).1.sameFragmenter
  | reset _ h =>
    subst h
    exact sendConsistent_of_free rfl rfl

/-! The receive side. -/

/-- The invariant of the receive side reads four registers, and the binding only to find it set. -/
theorem ReceiveConsistent.congr {s t : State} (hs : ReceiveConsistent s) (hp : t.rPhase = s.rPhase)
    (ho : t.recvOp = s.recvOp) (hfr : t.fr = s.fr) (hb : s.rxBound = true → t.rxBound = true) :
    ReceiveConsistent t := by
  obtain ⟨hiff, hbound, hframe, hdst⟩ := hs
  unfold ReceiveConsistent
  rw [hp, ho, hfr]
  exact ⟨hiff, fun h => hb (hbound h), hframe, hdst⟩

theorem receiveConsistent_of_idle {s : State} (hp : s.rPhase = .idle) (ho : s.recvOp = none) : ReceiveConsistent s := by
  unfold ReceiveConsistent
  rw [hp, ho]
  exact ⟨by simp, fun h => absurd rfl h, fun h => by simp at h, fun h => nomatch h⟩

/-- An invocation in progress before its frame is fetched. -/
theorem receiveConsistent_of_fetching {s : State} (hp : s.rPhase = .header ∨ s.rPhase = .payload)
    (ho : s.recvOp ≠ none) (hb : s.rxBound = true) : ReceiveConsistent s := by
  unfold ReceiveConsistent
  rcases hp with hp | hp
  all_goals
    rw [hp]
    exact ⟨by simpa using ho, fun _ => hb, fun h => by simp at h, fun h => nomatch h⟩

/-- A step of the reassembler: the invocation ends, or goes one phase on with what the phase needs. -/
theorem receiveConsistent_exec_receiveOneFrame {a : Addr} {s t : State} (hs : ReceiveConsistent s)
    (ha : s.rPhase = .idle ∨ s.recvOp = some a) (h : exec (.receiveOneFrame a) s = .next t) : ReceiveConsistent t := by
  by_cases hd : s.rPhase = .dispatch
  · rw [exec_receive_dispatch a hd] at h
    rcases exec_frameInstr_next s t h with ⟨-, rfl⟩ | ⟨slots, kind, packet, rfl, -⟩
    · exact hs
    · exact receiveConsistent_of_idle rfl rfl
  · obtain ⟨hsame, -, ⟨kind, ht, ho, -, -⟩ | ⟨-, hphase⟩⟩ := exec_receiveOneFrame_next a s t hd h
    · exact receiveConsistent_of_idle ht ho
    · obtain ⟨hiff, hbound, hframe, -⟩ := hs
      have hheld (hp : s.rPhase ≠ .idle) : s.recvOp ≠ none := fun ho => hp (hiff.2 ho)
      have hb (hp : s.rPhase ≠ .idle) : t.rxBound = true := hsame.rxBound.trans (hbound hp)
      rcases hphase with ⟨-, hrx, ht, ho, -⟩ | ⟨hp, ht, ho⟩ | ⟨hp, ht, ho, hf, -, hlen, hpayload⟩ |
        ⟨hp, ht, ho, hfr, hdst⟩
      · exact receiveConsistent_of_fetching (.inl ht) (by rw [ho]; simp) (hsame.rxBound.trans hrx)
      · have hbusy : s.rPhase ≠ .idle := by rw [hp]; decide
        exact receiveConsistent_of_fetching (.inr ht) (by rw [ho]; exact hheld hbusy) (hb hbusy)
      · have hbusy : s.rPhase ≠ .idle := by rw [hp]; decide
        refine ⟨?_, fun _ => hb hbusy, fun _ => ⟨hlen, hpayload⟩, fun h => nomatch ht.symm.trans h⟩
        rw [ht, ho]
        simpa using hheld hbusy
      · have hbusy : s.rPhase ≠ .idle := by rw [hp]; decide
        have hop : s.recvOp = some a := ha.resolve_left hbusy
        refine ⟨?_, fun _ => hb hbusy, fun _ => by rw [hfr]; exact hframe (.inl hp), fun _ => ?_⟩
        · rw [ht, ho]
          simpa using hheld hbusy
        · rw [ho, hfr, hdst, hop]

theorem step_receiveConsistent {s t : State} (h : step s = .next t) (hs : ReceiveConsistent s) :
    ReceiveConsistent t := by
  cases step_effect h with
  | untouched h => exact hs.congr h.rPhase h.recvOp h.fr fun hb => h.rxBound.trans hb
  | bound q _ _ _ _ h =>
    subst h
    exact hs.congr rfl rfl rfl fun _ => rfl
  | answered q op kind h =>
    subst h
    exact hs.congr rfl rfl rfl id
  | sendIssued q op _ _ h =>
    rcases acceptSend_next h with ⟨kind, rfl⟩ | ⟨-, -, rfl⟩ <;> exact hs.congr rfl rfl rfl id
  | sendStep op _ _ h =>
    have hsame := sameReceiveSide_of_exec_sendPacket h
    exact hs.congr hsame.rPhase hsame.recvOp hsame.fr fun hb => hsame.rxBound.trans hb
  | receiveStep q a hagent h =>
    have hdrawn : ReceiveConsistent (s.drawn q) := hs.congr rfl rfl rfl id
    exact receiveConsistent_exec_receiveOneFrame hdrawn (hagent.imp_right And.right) h
  | reset _ h =>
    subst h
    exact receiveConsistent_of_idle rfl rfl

/-! The whole invariant. -/

theorem step_bindingAgrees {s t : State} (h : step s = .next t) (hs : BindingAgrees s) : BindingAgrees t := by
  unfold BindingAgrees at hs ⊢
  rcases step_binding h with ⟨htx, hrx⟩ | ⟨-, htx, hrx⟩ | ⟨-, htx, hrx, -⟩
  · rw [htx, hrx, hs]
  · rw [htx, hrx]
  · rw [htx, hrx]

theorem step_legal {s t : State} (h : step s = .next t) (hs : s.legal = true) : t.legal = true := by
  rw [State.legal, step_cfg h, step_slots_length h]
  exact hs

/-- Settles O13: each part of the invariant has its step lemma. -/
theorem stepKeepsTheInvariant : Obligations.StepKeepsTheInvariant := fun _ _ hs h => {
  legal := step_legal h hs.legal
  unique := step_slotsUnique h hs.unique
  bounded := step_slotsBounded h hs.bounded
  idleEmpty := step_idleSlotsEmpty h hs.idleEmpty
  canonical := step_buffersCanonical h hs.canonical
  written := step_buffersWritten h hs.receive hs.written
  binding := step_bindingAgrees h hs.binding
  send := step_sendConsistent h hs.send
  receive := step_receiveConsistent h hs.receive }

end Sys2Proof.Machine

/-! PROOFS. A step of the send side and one of the receive side commute (spec/20_memory.md section 4): each is the same
whatever the other unit's registers and earlier results are. -/

namespace Sys2Proof.Machine

/-- Change the next state; a fault or a refusal stays. -/
def mapNext (f : State → State) (o : Outcome) : Outcome := andThen o fun t => .next (f t)

@[simp] theorem mapNext_next (f : State → State) (s : State) : mapNext f (.next s) = .next (f s) := rfl

theorem mapNext_eq_next {f : State → State} {o : Outcome} {t : State} (h : mapNext f o = .next t) :
    ∃ s, o = .next s ∧ t = f s := by
  obtain ⟨s, hs, ht⟩ := andThen_eq_next.1 h
  exact ⟨s, hs, (Host.Outcome.next.inj ht).symm⟩

/-- A change of the state that an operation does not see. -/
def Commutes (f : State → State) (op : State → Outcome) : Prop := ∀ s, op (f s) = mapNext f (op s)

/-! The receive side beside any send side. -/

/-- The receive side of `s` beside the send side of `w`, its results after the results `rs`. -/
def besideSend (w : State) (rs : List HostResult) (s : State) : State :=
  { s with
    fPhase := w.fPhase, fSeq := w.fSeq, fOff := w.fOff, fChk := w.fChk, fParam := w.fParam, sendOp := w.sendOp
    txCalls := w.txCalls, txAnswers := w.txAnswers, txDraws := w.txDraws, results := rs ++ s.results }

section BesideSend
variable (w : State) (rs : List HostResult)

theorem besideSend_finishReceive (s : State) (kind : ResultKind) (packet : Option Packet) :
    (besideSend w rs s).finishReceive kind packet = besideSend w rs (s.finishReceive kind packet) := by
  simp only [besideSend, State.finishReceive, State.deliver, List.append_assoc]

theorem commutes_finishReceive (kind : ResultKind) (packet : Option Packet) :
    Commutes (besideSend w rs) fun s => .next (s.finishReceive kind packet) :=
  fun s => congrArg Host.Outcome.next (besideSend_finishReceive w rs s kind packet)

theorem commutes_resolveThen {branch : Nat → State → Outcome}
    (h : ∀ i, Commutes (besideSend w rs) (branch i)) (fn : Addr) :
    Commutes (besideSend w rs) (resolveThen fn branch) := by
  intro s
  have hslots : (besideSend w rs s).slots = s.slots := rfl
  simp only [resolveThen, hslots]
  cases resolve s.slots fn with
  | none => exact commutes_finishReceive w rs .noFreeSlot none s
  | some i => exact h i s

theorem commutes_underLock {body : State → Outcome} (h : Commutes (besideSend w rs) body) :
    Commutes (besideSend w rs) (underLock body) := by
  intro s
  have hlock : (besideSend w rs s).lockHeld = s.lockHeld := rfl
  have hbody : body (besideSend w rs s).acquire = mapNext (besideSend w rs) (body s.acquire) := h s.acquire
  simp only [underLock, hlock, hbody]
  cases s.lockHeld with
  | true => rfl
  | false => cases body s.acquire <;> rfl

theorem commutes_onStart (f : Fields) (i : Nat) : Commutes (besideSend w rs) (onStart f i) :=
  fun s => commutes_finishReceive w rs .inProgress none (s.setSlot i ((s.slot i).start f))

theorem commutes_abortWith (kind : ResultKind) (i : Nat) : Commutes (besideSend w rs) (abortWith kind i) :=
  fun s => commutes_finishReceive w rs kind none (s.setSlot i (s.slot i).abort)

theorem commutes_endValidate (payload : List Byte) (i : Nat) :
    Commutes (besideSend w rs) (endValidate payload i) := by
  intro s
  have hslot : (besideSend w rs s).slot i = s.slot i := rfl
  have hcfg : (besideSend w rs s).cfg = s.cfg := rfl
  simp only [endValidate, hslot, hcfg]
  cases bufRead (s.slot i).buf 0 (s.slot i).accLen.toNat with
  | error r => rfl
  | ok bytes =>
    dsimp only
    split
    next => exact commutes_abortWith w rs .invalidCrc i s
    next => exact commutes_finishReceive w rs .ok _ (s.setSlot i ((s.slot i).complete (endParam payload)))

theorem commutes_onEnd (f : Fields) (payload : List Byte) (i : Nat) :
    Commutes (besideSend w rs) (onEnd f payload i) := by
  intro s
  have hslot : (besideSend w rs s).slot i = s.slot i := rfl
  simp only [onEnd, hslot]
  split
  next => exact commutes_finishReceive w rs .invalidFormat none s
  next =>
    split
    next => exact commutes_abortWith w rs .invalidFormat i s
    next =>
      split
      next => exact commutes_abortWith w rs .invalidFormat i s
      next => exact commutes_endValidate w rs payload i s

theorem commutes_onData (f : Fields) (payload : List Byte) (i : Nat) :
    Commutes (besideSend w rs) (onData f payload i) := by
  intro s
  have hslot : (besideSend w rs s).slot i = s.slot i := rfl
  simp only [onData, hslot]
  split
  next => exact commutes_finishReceive w rs .inProgress none s
  next =>
    split
    next => exact commutes_abortWith w rs .invalidFormat i s
    next =>
      cases (s.slot i).append f payload with
      | error r => rfl
      | ok sl => exact commutes_finishReceive w rs .inProgress none (s.setSlot i sl)

theorem commutes_exec_frameInstr (p : Params) (fr : FrameReg) :
    Commutes (besideSend w rs) (exec (frameInstr p fr)) := by
  rw [frameInstr]
  split
  next => exact commutes_finishReceive w rs .malformedHeader none
  next =>
    split
    next => exact commutes_underLock w rs (commutes_resolveThen w rs (commutes_onStart w rs fr.fields) _)
    next => exact commutes_underLock w rs (commutes_resolveThen w rs (commutes_onEnd w rs fr.fields fr.payload) _)
    next => exact commutes_underLock w rs (commutes_resolveThen w rs (commutes_onData w rs fr.fields fr.payload) _)

theorem commutes_acceptReceive (a : Addr) : Commutes (besideSend w rs) (acceptReceive a) := by
  intro s
  have hbound : (besideSend w rs s).rxBound = s.rxBound := rfl
  simp only [acceptReceive, hbound]
  split
  next => exact commutes_finishReceive w rs .notInitialized none s
  next => rfl

theorem commutes_fetchHeader : Commutes (besideSend w rs) fetchHeader := by
  intro s
  have hread : (besideSend w rs s).received headerBytes = s.received headerBytes := rfl
  simp only [fetchHeader, hread]
  cases s.received headerBytes with
  | none => exact commutes_finishReceive w rs .noData none (s.afterReceive headerBytes)
  | some h => rfl

theorem commutes_fetchPayload : Commutes (besideSend w rs) fetchPayload := by
  intro s
  have hfr : (besideSend w rs s).fr = s.fr := rfl
  have hread (n : Nat) : (besideSend w rs s).received n = s.received n := rfl
  simp only [fetchPayload, hfr, hread]
  split
  next => exact commutes_finishReceive w rs .malformedHeader none s
  next =>
    split
    next => rfl
    next =>
      cases s.received s.fr.fields.len.toNat with
      | none => exact commutes_finishReceive w rs .noData none (s.afterReceive s.fr.fields.len.toNat)
      | some p => rfl

theorem commutes_filterFrame (a : Addr) : Commutes (besideSend w rs) (filterFrame a) := by
  intro s
  have hfr : (besideSend w rs s).fr = s.fr := rfl
  simp only [filterFrame, hfr]
  split
  next => exact commutes_finishReceive w rs .invalidAddress none s
  next => rfl

theorem commutes_exec_receiveOneFrame (a : Addr) : Commutes (besideSend w rs) (exec (.receiveOneFrame a)) := by
  intro s
  have hphase : (besideSend w rs s).rPhase = s.rPhase := rfl
  cases hp : s.rPhase with
  | dispatch =>
    rw [exec_receive_dispatch a hp, exec_receive_dispatch a (hphase.trans hp)]
    exact commutes_exec_frameInstr w rs s.cfg s.fr s
  | idle =>
    simp only [exec, execReceiveOneFrame, hphase, hp]
    exact commutes_acceptReceive w rs a s
  | header =>
    simp only [exec, execReceiveOneFrame, hphase, hp]
    exact commutes_fetchHeader w rs s
  | payload =>
    simp only [exec, execReceiveOneFrame, hphase, hp]
    exact commutes_fetchPayload w rs s
  | filter =>
    simp only [exec, execReceiveOneFrame, hphase, hp]
    exact commutes_filterFrame w rs a s

/-- No operation of the receive side sees the send side or an earlier result. -/
theorem commutes_exec_receiveSide {i : Instr} (hi : receiveSide i = true) :
    Commutes (besideSend w rs) (exec i) := by
  cases i with
  | startFrame f payload => exact commutes_underLock w rs (commutes_resolveThen w rs (commutes_onStart w rs f) _)
  | endFrame f payload => exact commutes_underLock w rs (commutes_resolveThen w rs (commutes_onEnd w rs f payload) _)
  | dataFrame seq f payload =>
    exact commutes_underLock w rs (commutes_resolveThen w rs (commutes_onData w rs f payload) _)
  | reservedLen param f => exact commutes_finishReceive w rs .malformedHeader none
  | receiveOneFrame a => exact commutes_exec_receiveOneFrame w rs a
  | init | sendPacket | reservedCmd => exact nomatch hi

end BesideSend

/-! The send side after any results. -/

/-- `s` with its results after the results `rs`. -/
def State.afterResults (rs : List HostResult) (s : State) : State := { s with results := rs ++ s.results }

section AfterResults
variable (rs : List HostResult)

theorem commutes_finishSend (kind : ResultKind) :
    Commutes (State.afterResults rs) fun s => .next (s.finishSend kind) := by
  intro s
  simp only [mapNext_next, State.afterResults, State.finishSend, State.deliver, List.append_assoc]

theorem commutes_acceptSend (op : SendOp) : Commutes (State.afterResults rs) (acceptSend op) := by
  intro s
  have hbound : (s.afterResults rs).txBound = s.txBound := rfl
  simp only [acceptSend, hbound]
  split
  next => exact commutes_finishSend rs .notInitialized s
  next =>
    split
    next => exact commutes_finishSend rs .refused s
    next => rfl

theorem commutes_emit (bytes : List Byte) {onOk : State → State}
    (h : Commutes (State.afterResults rs) fun s => .next (onOk s)) :
    Commutes (State.afterResults rs) (emit bytes onOk) := by
  intro s
  have hanswer : (s.afterResults rs).nextTxAnswer = s.nextTxAnswer := rfl
  simp only [emit, hanswer]
  cases s.nextTxAnswer with
  | ok => exact h (s.transmit bytes)
  | error n => exact commutes_finishSend rs .sendFailure (s.transmit bytes)

theorem commutes_emitStart (op : SendOp) : Commutes (State.afterResults rs) (emitStart op) :=
  fun s => commutes_emit rs (startBytes s.cfg op) (onOk := State.afterStart op) (fun _ => rfl) (s.setupSend op)

theorem commutes_emitData (op : SendOp) : Commutes (State.afterResults rs) (emitData op) := by
  intro s
  have hoff : (s.afterResults rs).fOff = s.fOff := rfl
  simp only [emitData, hoff]
  split
  next =>
    exact commutes_emit rs (dataBytes s.cfg op s.fSeq s.fOff.toNat) (onOk := State.afterData op) (fun _ => rfl) s
  next => rfl

theorem commutes_emitEnd (op : SendOp) : Commutes (State.afterResults rs) (emitEnd op) :=
  fun s => commutes_emit rs (endBytes s.cfg op s.fSeq s.fChk s.fParam) (onOk := fun t => t.finishSend .ok)
    (commutes_finishSend rs .ok) s

/-- No step of SEND_PACKET sees an earlier result. -/
theorem commutes_exec_sendPacket (op : SendOp) : Commutes (State.afterResults rs) (exec (.sendPacket op)) := by
  intro s
  have hphase : (s.afterResults rs).fPhase = s.fPhase := rfl
  have hop : (s.afterResults rs).sendOp = s.sendOp := rfl
  simp only [exec, execSendPacket, hphase, hop]
  cases s.fPhase with
  | idle =>
    cases s.sendOp with
    | none => exact commutes_acceptSend rs op s
    | some _ => exact commutes_emitStart rs op s
  | start => exact commutes_emitStart rs op s
  | data => exact commutes_emitData rs op s
  | finish => exact commutes_emitEnd rs op s

end AfterResults

/-! Both sides on one state without results. -/

/-- `s` with no result delivered. -/
def State.noResults (s : State) : State := { s with results := [] }

theorem afterResults_noResults (s : State) : s.noResults.afterResults s.results = s := by
  simp only [State.afterResults, State.noResults, List.append_nil]

/-- A state that has the receive side of `s` is that receive side beside its own send side. -/
theorem SameReceiveSide.eq_besideSend {s v : State} (h : SameReceiveSide s v) :
    v = besideSend v v.results s.noResults := by
  obtain ⟨h1, h2, h3, h4, h5, h6, h7, h8, h9, h10, h11, h12, h13, h14⟩ := h
  cases v
  simp only at h1 h2 h3 h4 h5 h6 h7 h8 h9 h10 h11 h12 h13 h14
  simp only [besideSend, State.noResults, List.append_nil, h1, h2, h3, h4, h5, h6, h7, h8, h9, h10, h11, h12,
    h13, h14]

theorem SameReceiveSide.refl (s : State) : SameReceiveSide s s := by constructor <;> rfl

/-- What the receive side of `t` beside the send side of `s` is for the fragmenter. -/
theorem SameSendSide.besideSend_eq {s t : State} (h : SameSendSide s.noResults t) :
    besideSend s s.results t = (s.noResults.withReceiveSide t).afterResults (s.results ++ t.results) := by
  obtain ⟨h1, h2, -, -, -, -, -, -, -, -, -, -, h13, h14, h15, -⟩ := h
  simp only [State.noResults] at h1 h2 h13 h14 h15
  simp only [besideSend, State.noResults, State.withReceiveSide, State.afterResults, List.append_nil, h1, h2, h13,
    h14, h15]

/-- The two sides put together, in one order and in the other: the same state but for the results. -/
theorem besideSend_eq_withReceiveSide {s t v : State} (hs : SameReceiveSide s v) (ht : SameSendSide s t)
    (rs rs' : List HostResult) (s1 : State) (h1 : s1 = v.afterResults rs) :
    { (v.withReceiveSide t).afterResults rs' with results := (besideSend s1 s1.results t).results } =
      besideSend s1 s1.results t := by
  subst h1
  simp only [State.withReceiveSide, State.afterResults, besideSend, hs.cfg, hs.txBound, hs.hostQueue, hs.script,
    hs.eventDraws, ht.cfg, ht.txBound, ht.hostQueue, ht.script, ht.eventDraws]

/-- What an operation of the receive side leaves, and whose results it delivers. -/
theorem exec_receiveSide_next {i : Instr} (hi : receiveSide i = true) {s t : State} (h : exec i s = .next t) :
    SameSendSide s t ∧ (t.results = s.results ∨ ∃ r, t.results = s.results ++ [r] ∧ r.op = .receive) := by
  have hframe {fn : Addr} (hrow : (∃ f p, i = .startFrame f p ∧ f.fn = fn) ∨ (∃ f p, i = .endFrame f p ∧ f.fn = fn) ∨
      (∃ n f p, i = .dataFrame n f p ∧ f.fn = fn)) :
      SameSendSide s t ∧ (t.results = s.results ∨ ∃ r, t.results = s.results ++ [r] ∧ r.op = .receive) := by
    rcases exec_frame_next i fn s t hrow h with ⟨-, rfl⟩ | ⟨-, slots, kind, packet, rfl, -⟩
    · exact ⟨by constructor <;> rfl, .inl rfl⟩
    · exact ⟨.of_afterFrame .., .inr ⟨_, rfl, rfl⟩⟩
  cases i with
  | startFrame f payload => exact hframe (.inl ⟨f, payload, rfl, rfl⟩)
  | endFrame f payload => exact hframe (.inr (.inl ⟨f, payload, rfl, rfl⟩))
  | dataFrame seq f payload => exact hframe (.inr (.inr ⟨seq, f, payload, rfl, rfl⟩))
  | reservedLen param f =>
    obtain rfl := Host.Outcome.next.inj h
    exact ⟨by constructor <;> rfl, .inr ⟨_, rfl, rfl⟩⟩
  | receiveOneFrame a =>
    obtain ⟨hsame, -, hresults⟩ := exec_receiveOneFrame_cases a s t h
    exact ⟨hsame, hresults⟩
  | init | sendPacket | reservedCmd => exact nomatch hi

/-- The order of two units' results does not show in the results of one operation. -/
theorem filter_op_append_comm {xs ys : List HostResult} (hx : ∀ r ∈ xs, r.op = .send) (hy : ∀ r ∈ ys, r.op = .receive)
    (o : HostOp) : (xs ++ ys).filter (fun r => decide (r.op = o)) = (ys ++ xs).filter fun r => decide (r.op = o) := by
  rw [List.filter_append, List.filter_append]
  by_cases ho : o = .send
  · have hnone : ys.filter (fun r => decide (r.op = o)) = [] :=
      List.filter_eq_nil_iff.2 fun r hr => by rw [hy r hr, ho]; decide
    rw [hnone, List.append_nil, List.nil_append]
  · have hnone : xs.filter (fun r => decide (r.op = o)) = [] :=
      List.filter_eq_nil_iff.2 fun r hr => by rw [hx r hr]; simpa using Ne.symm ho
    rw [hnone, List.append_nil, List.nil_append]

/-- Settles O56: both steps are run on the state without results; whichever comes second sees the first one's side
exchanged and a result before its own, and commutes with both. -/
theorem sendAndReceiveStepsCommute : Obligations.SendAndReceiveStepsCommute := by
  intro op i s s1 s2 hi hsend hreceive
  obtain ⟨v, hv, hstep⟩ := exec_sendPacket_frame op s.noResults
  have hsame := sameReceiveSide_of_exec_sendPacket hsend
  -- the send step, and the receive step after it
  have hs1 : s1 = v.afterResults s.results := by
    have hcomm := commutes_exec_sendPacket s.results op s.noResults
    rw [afterResults_noResults, hv, hsend] at hcomm
    exact Host.Outcome.next.inj hcomm
  rw [hsame.eq_besideSend, commutes_exec_receiveSide s1 s1.results hi] at hreceive
  obtain ⟨t, ht, hs2⟩ := mapNext_eq_next hreceive
  obtain ⟨hsameSend, hresults⟩ := exec_receiveSide_next hi ht
  -- the receive step, and the send step after it
  have hu1 : exec i s = .next (besideSend s s.results t) := by
    have hcomm := commutes_exec_receiveSide s s.results hi s.noResults
    rwa [← (SameReceiveSide.refl s).eq_besideSend, ht] at hcomm
  have hu2 : exec (.sendPacket op) (besideSend s s.results t) =
      .next ((v.withReceiveSide t).afterResults (s.results ++ t.results)) := by
    rw [hsameSend.besideSend_eq, commutes_exec_sendPacket, exec_sendPacket_withReceiveSide, hv]
    rfl
  refine ⟨_, _, hu1, hu2, ?_, fun o => ?_⟩
  · rw [hs2]
    exact besideSend_eq_withReceiveSide hstep.same hsameSend s.results _ s1 hs1
  · have hx : ∀ r ∈ v.results, r.op = .send := by
      rcases hstep.results with hnone | ⟨kind, hone⟩ <;> simp_all [State.noResults]
    have hy : ∀ r ∈ t.results, r.op = .receive := by
      rcases hresults with hnone | ⟨r, hone, hop⟩ <;> simp_all [State.noResults]
    have hleft : ((v.withReceiveSide t).afterResults (s.results ++ t.results)).results =
        s.results ++ (t.results ++ v.results) := List.append_assoc ..
    have hright : s2.results = s.results ++ (v.results ++ t.results) := by
      rw [hs2, hs1]
      exact List.append_assoc ..
    rw [State.resultsOf, State.resultsOf, hleft, hright, List.filter_append, List.filter_append s.results,
      filter_op_append_comm hx hy]

end Sys2Proof.Machine

/-! PROOFS. A whole invocation on an encoded frame of this node: the frame is taken and step C runs on it
(spec/44_reassembler.md R161). -/

namespace Sys2Proof.Machine

/-- The reassembler can be polled: it is free and bound, and nobody has the lock. -/
structure CanPoll (s : State) : Prop where
  rPhase : s.rPhase = .idle
  rxBound : s.rxBound = true
  lockHeld : s.lockHeld = false

/-- What the fetch and the filter leave alone on the way to step C. -/
structure SameOutsideFetch (s u : State) : Prop where
  slots : u.slots = s.slots
  cfg : u.cfg = s.cfg
  rxBound : u.rxBound = s.rxBound
  lockHeld : u.lockHeld = s.lockHeld
  results : u.results = s.results

theorem SameOutsideFetch.trans {s t u : State} (h : SameOutsideFetch s t) (h' : SameOutsideFetch t u) :
    SameOutsideFetch s u :=
  ⟨h'.slots.trans h.slots, h'.cfg.trans h.cfg, h'.rxBound.trans h.rxBound, h'.lockHeld.trans h.lockHeld,
    h'.results.trans h.results⟩

/-- A step before step C that does not end the invocation. -/
theorem sameOutsideFetch_of_exec {a : Addr} {s u : State} (hs : s.rPhase ≠ .dispatch) (hu : u.rPhase ≠ .idle)
    (h : exec (.receiveOneFrame a) s = .next u) : SameOutsideFetch s u := by
  obtain ⟨hsame, hslots, ⟨kind, hidle, -⟩ | ⟨hresults, -⟩⟩ := exec_receiveOneFrame_next a s u hs h
  · exact absurd hidle hu
  · exact ⟨hslots, hsame.cfg, hsame.rxBound, hsame.lockHeld, hresults⟩

/-- `u` is `s` with a whole frame for this node in the frame register and `rest` left pending; step C is next. -/
structure Fetched (s : State) (fr : FrameReg) (rest : List Byte) (answers : List RxAnswer) (u : State) : Prop where
  same : SameOutsideFetch s u
  rPhase : u.rPhase = .dispatch
  fr : u.fr = fr
  rxFifo : u.rxFifo = rest
  rxAnswers : u.rxAnswers = answers

/-- The header read where an encoded header is pending and the transport serves it. -/
theorem exec_receive_header_encoded {s : State} (a : Addr) {param : Byte} {f : Fields} {bytes : List Byte}
    (hp : s.rPhase = .header) (hserve : s.nextRxAnswer = .serve) (hfifo : s.rxFifo = encodeHeader param f ++ bytes) :
    ∃ u, exec (.receiveOneFrame a) s = .next u ∧ u.rPhase = .payload ∧
      u.fr = { s.fr with param := param, fields := f } ∧ u.rxFifo = bytes ∧ u.rxAnswers = s.rxAnswers.tail := by
  have hread : s.received headerBytes = some (s.rxFifo.take headerBytes) :=
    State.received_of_serve hserve (by rw [hfifo]; exact headerBytes_le_encodeHeader ..)
  refine ⟨_, exec_receive_header a hp hread, rfl, ?_, ?_, rfl⟩
  · rw [hfifo, take_encodeHeader, headerParam_encodeHeader, headerFields_encodeHeader]
  · rw [hfifo, drop_encodeHeader]

/-- The frame register after an encoded frame was fetched. -/
def sentReg (p : Params) (param : Byte) (src dst fn : Addr) (payload : List Byte) : FrameReg :=
  ⟨param, txFields p src dst fn payload.length, payload⟩

theorem txFields_len_toNat (p : Params) (src dst fn : Addr) {n : Nat} (h : n ≤ maxFramePayload) :
    (txFields p src dst fn n).len.toNat = n := by
  have hlen : (txFields p src dst fn n).len = BitVec.ofNat 4 n := rfl
  simp only [maxFramePayload] at h
  rw [hlen, BitVec.toNat_ofNat]
  omega

section EncodedFrame
variable {s : State} {param : Byte} {src dst fn : Addr} {payload rest : List Byte} {more : List RxAnswer}

/-- The fetch and the filter on an encoded frame: a payload of length 0 makes one read, any other two. -/
theorem callReceive_fetches (hs : CanPoll s) (ha : s.rxAnswers = .serve :: .serve :: more)
    (hfifo : s.rxFifo = encodeFrame s.cfg param src dst fn payload ++ rest)
    (hlen : payload.length ≤ maxFramePayload) :
    ∃ u, Fetched s (sentReg s.cfg param src dst fn payload) rest
        (if payload.length = 0 then .serve :: more else more) u ∧
      callReceive dst s = continueReceive dst 1 u := by
  have hn := txFields_len_toNat s.cfg src dst fn hlen
  obtain ⟨u, hbegin, hcons, hu, huanswers⟩ := exec_receive_bound dst hs.rPhase hs.rxBound
  have hufifo : u.rxFifo = encodeHeader param (txFields s.cfg src dst fn payload.length) ++ (payload ++ rest) := by
    rw [hcons.rxFifo, List.drop_zero, hfifo, encodeFrame, List.append_assoc]
  obtain ⟨v, hheader, hv, hvfr, hvfifo, hvanswers⟩ :=
    exec_receive_header_encoded dst hu (State.nextRxAnswer_of_cons (huanswers.trans ha)) hufifo
  rw [huanswers, ha, List.tail_cons] at hvanswers
  have hvlen : v.fr.fields.len.toNat = payload.length := by rw [hvfr]; exact hn
  obtain ⟨w, hpayload, hwcons, hw, -, hwfr, hwanswers⟩ := exec_receive_payload_pending dst hv
    (by rw [hvlen]; exact hlen) (State.nextRxAnswer_of_cons hvanswers)
    (by rw [hvlen, hvfifo, List.length_append]; exact Nat.le_add_right _ _)
  have hwfr' : w.fr = sentReg s.cfg param src dst fn payload := by
    rw [hwfr, hvlen, hvfifo, List.take_left, hvfr]
    rfl
  have hfilter := exec_receive_own dst hw (by rw [hwfr']; rfl)
  have hbusy : u.rPhase ≠ .idle ∧ v.rPhase ≠ .idle ∧ w.rPhase ≠ .idle := by
    rw [hu, hv, hw]
    decide
  obtain ⟨hubusy, hvbusy, hwbusy⟩ := hbusy
  refine ⟨{ w with rPhase := .dispatch }, ⟨?_, rfl, hwfr', ?_, ?_⟩, ?_⟩
  · exact ((sameOutsideFetch_of_exec (by rw [hs.rPhase]; decide) hubusy hbegin).trans
      (sameOutsideFetch_of_exec (by rw [hu]; decide) hvbusy hheader)).trans
      ((sameOutsideFetch_of_exec (by rw [hv]; decide) hwbusy hpayload).trans
      (sameOutsideFetch_of_exec (by rw [hw]; decide) (nofun) hfilter))
  · have htaken := hwcons.rxFifo
    rwa [hvlen, hvfifo, List.drop_left] at htaken
  · rwa [hvlen, hvanswers, List.tail_cons] at hwanswers
  · rw [callReceive_of_exec hbegin, maxReceiveSteps, continueReceive_of_exec hubusy hheader,
      continueReceive_of_exec hvbusy hpayload, continueReceive_of_exec hwbusy hfilter]

/-- `t` is `s` after an invocation that took the frame at the head of the FIFO: the table is `slots`, `r` was
delivered, and the reassembler can be polled again. -/
structure Received (s : State) (rest : List Byte) (answers : List RxAnswer) (slots : List Slot) (r : HostResult)
    (t : State) : Prop where
  canPoll : CanPoll t
  cfg : t.cfg = s.cfg
  slots : t.slots = slots
  results : t.results = s.results ++ [r]
  rxFifo : t.rxFifo = rest
  rxAnswers : t.rxAnswers = answers

/-- The whole invocation, where the frame's own row is known on every state with this table, this configuration and a
free lock. -/
theorem callReceive_of_row (hs : CanPoll s) (ha : s.rxAnswers = .serve :: .serve :: more)
    (hfifo : s.rxFifo = encodeFrame s.cfg param src dst fn payload ++ rest)
    (hlen : payload.length ≤ maxFramePayload) {slots : List Slot} {kind : ResultKind} {packet : Option Packet}
    (hrow : ∀ u : State, u.slots = s.slots → u.cfg = s.cfg → u.lockHeld = false →
      exec (frameInstr s.cfg (sentReg s.cfg param src dst fn payload)) u = .next (u.afterFrame slots kind packet)) :
    ∃ t, callReceive dst s = .next t ∧
      Received s rest (if payload.length = 0 then .serve :: more else more) slots ⟨.receive, kind, packet⟩ t := by
  obtain ⟨u, hu, hcall⟩ := callReceive_fetches hs ha hfifo hlen
  have hlock : u.lockHeld = false := hu.same.lockHeld.trans hs.lockHeld
  have hexec : exec (.receiveOneFrame dst) u = .next (u.afterFrame slots kind packet) := by
    rw [exec_receive_dispatch dst hu.rPhase, hu.same.cfg, hu.fr]
    exact hrow u hu.same.slots hu.same.cfg hlock
  refine ⟨u.afterFrame slots kind packet, ?_, ?_⟩
  · rw [hcall, continueReceive_of_exec (by rw [hu.rPhase]; decide) hexec]
    exact continueReceive_of_idle rfl dst 0
  · exact {
      canPoll := ⟨rfl, hu.same.rxBound.trans hs.rxBound, hlock⟩
      cfg := hu.same.cfg
      slots := rfl
      results := congrArg (· ++ [(⟨.receive, kind, packet⟩ : HostResult)]) hu.same.results
      rxFifo := hu.rxFifo
      rxAnswers := hu.rxAnswers }

end EncodedFrame

/-- The host's polling loop, read from its last invocation. -/
theorem pollTimes_succ (a : Addr) (n : Nat) (s : State) :
    pollTimes a (n + 1) s = andThen (pollTimes a n s) (callReceive a) := by
  induction n generalizing s with
  | zero =>
    simp only [pollTimes, andThen_next]
    cases callReceive a s <;> rfl
  | succ n ih =>
    rw [pollTimes, pollTimes]
    cases callReceive a s with
    | next t => exact ih t
    | fault r => rfl
    | refused r => rfl

theorem pollTimes_succ_of_next {a : Addr} {n : Nat} {s t u : State} (h : pollTimes a n s = .next t)
    (h' : callReceive a t = .next u) : pollTimes a (n + 1) s = .next u := by
  rw [pollTimes_succ, h, andThen_next, h']

end Sys2Proof.Machine

/-! PROOFS. The round trip (spec/44_reassembler.md section 4): the frames of a packet, polled one by one, fill a slot
with its bytes and deliver it. -/

namespace Sys2Proof.Machine

/-- The slot assembles the packet of `op` and holds its first `k` chunks. -/
structure HoldsChunks (op : SendOp) (k : Nat) (sl : Slot) : Prop where
  busy : sl.inProgress = true
  fn : sl.fn = op.fn
  src : sl.src = op.src
  dst : sl.dst = op.dst
  accLen : sl.accLen.toNat = min (maxFramePayload * k) op.length.toNat
  bytes : ∀ j, j < sl.accLen.toNat → sl.buf.read j = op.payload[j]?

theorem HoldsChunks.assembles {op : SendOp} {k : Nat} {sl : Slot} (h : HoldsChunks op k sl) :
    sl.assembles op.fn = true := Slot.assembles_eq_true.2 ⟨h.busy, h.fn⟩

/-- A slot that START opened holds no chunk yet. -/
theorem holdsChunks_start (op : SendOp) (p : Params) (n : Nat) (sl : Slot) :
    HoldsChunks op 0 (sl.start (txFields p op.src op.dst op.fn n)) where
  busy := rfl
  fn := rfl
  src := rfl
  dst := rfl
  accLen := (Nat.zero_min _).symm
  bytes := fun j hj => absurd hj (Nat.not_lt_zero j)

theorem chunkAt_getElem? (op : SendOp) {off k : Nat} (hk : k < chunkLen op.length.toNat off) :
    (chunkAt op off)[k]? = op.payload[off + k]? := by
  rw [chunkAt, List.getElem?_take_of_lt hk, List.getElem?_drop]

/-- With `k` chunks held and bytes left, the next chunk has room and continues them. -/
theorem HoldsChunks.appended {op : SendOp} {k : Nat} {sl : Slot} {f : Fields} (h : HoldsChunks op k sl)
    (hpayload : op.payload.length = op.length.toNat) (hL : op.length.toNat ≤ maxPacketPayload)
    (hk : maxFramePayload * k < op.length.toNat)
    (hf : f.len.toNat = chunkLen op.length.toNat (maxFramePayload * k)) :
    wouldOverflow sl.accLen f.len = false ∧
      HoldsChunks op (k + 1) (sl.appended f (chunkAt op (maxFramePayload * k))) := by
  have hacc : sl.accLen.toNat = maxFramePayload * k := h.accLen.trans (Nat.min_eq_left hk.le)
  have hnext : sl.accLen.toNat + f.len.toNat = min (maxFramePayload * (k + 1)) op.length.toNat := by
    rw [hacc, hf, chunkLen]
    simp only [maxFramePayload] at hk ⊢
    omega
  have hroom : wouldOverflow sl.accLen f.len = false :=
    wouldOverflow_eq_false.2 (by rw [hnext]; exact (Nat.min_le_right _ _).trans hL)
  have hlen : (sl.appended f (chunkAt op (maxFramePayload * k))).accLen.toNat = sl.accLen.toNat + f.len.toNat :=
    Slot.appended_accLen_toNat _ hroom
  refine ⟨hroom, h.busy, h.fn, h.src, h.dst, hlen.trans hnext, fun j hj => ?_⟩
  by_cases hold : j < sl.accLen.toNat
  · rw [Slot.appended_read_outside sl f _ (.inl hold)]
    exact h.bytes j hold
  · obtain ⟨m, rfl⟩ := Nat.exists_eq_add_of_le (Nat.not_lt.1 hold)
    have hm : m < f.len.toNat := by omega
    rw [Slot.appended_read_inside sl (by rw [chunkAt_length hpayload, hf]) hm, hacc, chunkAt_getElem? op (hf ▸ hm)]

/-- After `ceil8` chunks the slot holds the whole payload. -/
theorem HoldsChunks.accLen_all {op : SendOp} {sl : Slot} (h : HoldsChunks op (ceil8 op.length.toNat) sl) :
    sl.accLen.toNat = op.length.toNat := by
  refine h.accLen.trans (Nat.min_eq_right ?_)
  simp only [ceil8, maxFramePayload]
  omega

/-- The frame register after data frame number `k` of a packet was fetched. -/
def chunkReg (p : Params) (op : SendOp) (k : Nat) : FrameReg :=
  sentReg p (BitVec.ofNat 8 k) op.src op.dst op.fn (chunkAt op (maxFramePayload * k))

theorem chunkReg_len (p : Params) {op : SendOp} (h : op.payload.length = op.length.toNat) (k : Nat) :
    (chunkReg p op k).fields.len.toNat = chunkLen op.length.toNat (maxFramePayload * k) := by
  have hchunk := chunkAt_length h (maxFramePayload * k)
  exact (txFields_len_toNat p op.src op.dst op.fn (hchunk.trans_le (Nat.min_le_left _ _))).trans hchunk

/-- The frames still to come after START and `j` data frames. -/
theorem packetFrames_drop (p : Params) {op : SendOp} (h : op.payload.length = op.length.toNat) {j : Nat}
    (hj : j ≤ ceil8 op.length.toNat) :
    (packetFrames p op).drop (j + 1) = frameAfter p op j :: (packetFrames p op).drop (j + 2) := by
  obtain ⟨later, hframes⟩ := framesBeforeEnd_frameAfter_prefix p h hj
  have hlen := framesBeforeEnd_length p op j
  have hfrom : (packetFrames p op).drop (j + 1) = [frameAfter p op j] ++ later := by
    rw [← hframes, List.append_assoc]
    exact List.drop_left' hlen
  have hafter : (packetFrames p op).drop (j + 2) = later := by
    rw [← hframes]
    exact List.drop_left' (by rw [List.length_append, hlen, List.length_singleton])
  rw [hfrom, hafter, List.singleton_append]

theorem packetFrames_drop_all (p : Params) {op : SendOp} (h : op.payload.length = op.length.toNat) :
    (packetFrames p op).drop (ceil8 op.length.toNat + 2) = [] := by
  refine List.drop_eq_nil_of_le ?_
  rw [packetFrames_eq p op h, List.length_append, framesBeforeEnd_length, List.length_singleton]

/-- The payload of the END frame of a packet (spec/41_fragmenter.md R115). -/
def endPayload (p : Params) (op : SendOp) : List Byte :=
  [BitVec.ofNat 8 (ceil8 op.length.toNat), checksum8 p.checksum (chkInit p.checksum) op.payload, op.param]

theorem endPayload_length (p : Params) (op : SendOp) : (endPayload p op).length = 3 := rfl

/-- The frame register after the END frame of a packet was fetched. -/
def endReg (p : Params) (op : SendOp) : FrameReg := sentReg p p.paramEnd op.src op.dst op.fn (endPayload p op)

theorem lastFrame_eq (p : Params) {op : SendOp} (h : op.payload.length = op.length.toNat) :
    lastFrame p op = encodeFrame p p.paramEnd op.src op.dst op.fn (endPayload p op) := by
  rw [lastFrame, ← h, List.take_length, h]
  rfl

/-- What the round trip asks of the sender's operands and of the receiving block. -/
structure RoundTrip (op : SendOp) (s : State) (i : Nat) : Prop where
  legal : s.cfg.legal = true
  fits : op.length.toNat ≤ maxPacketPayload
  payload : op.payload.length = op.length.toNat
  unassembled : ∀ sl ∈ s.slots, sl.assembles op.fn = false
  resolved : resolve s.slots op.fn = some i

/-- `u` is `s` after START and `k` data frames of `op` were polled into slot `i`: the loop invariant of the round
trip. -/
structure Assembled (op : SendOp) (s : State) (i k : Nat) (u : State) : Prop where
  canPoll : CanPoll u
  cfg : u.cfg = s.cfg
  slots : ∃ sl, u.slots = s.slots.set i sl ∧ HoldsChunks op k sl
  results : u.results = s.results ++ List.replicate (k + 1) (receiveResult .inProgress)
  rxFifo : u.rxFifo = ((packetFrames s.cfg op).drop (k + 1)).flatten
  rxAnswers : u.rxAnswers = List.replicate (2 * (ceil8 op.length.toNat - k) + 4) .serve

section RoundTrip
variable {op : SendOp} {s : State} {i : Nat}

/-- A table with one slot written, to one that assembles a stream no other slot has: RESOLVE answers it. -/
theorem RoundTrip.resolve_set (h : RoundTrip op s i) {t : State} {sl : Slot} (hset : t.slots = s.slots.set i sl)
    (ha : sl.assembles op.fn = true) : resolve t.slots op.fn = some i := by
  obtain ⟨hi, -⟩ := resolve_eq_some h.resolved
  refine resolve_of_assembles (by rwa [hset, List.length_set]) ?_ fun j hj => ?_
  · rw [State.slot_of_set hi hset, if_pos rfl, ha]
  · rw [State.slot_of_set hi hset, if_neg (by omega)]
    exact h.unassembled _ (s.slot_mem j (hj.trans hi))

/-- The START frame opens the resolved slot. -/
theorem RoundTrip.receive_start (h : RoundTrip op s i) (hs : CanPoll s)
    (hfifo : s.rxFifo = (packetFrames s.cfg op).flatten)
    (ha : s.rxAnswers = List.replicate (2 * ceil8 op.length.toNat + 5) .serve) :
    ∃ u, callReceive op.dst s = .next u ∧ Assembled op s i 0 u := by
  have hfifo' : s.rxFifo = encodeFrame s.cfg s.cfg.paramStart op.src op.dst op.fn [] ++
      ((packetFrames s.cfg op).drop 1).flatten := hfifo
  have hrow (u : State) (hslots : u.slots = s.slots) (_ : u.cfg = s.cfg) (hl : u.lockHeld = false) :
      exec (frameInstr s.cfg (sentReg s.cfg s.cfg.paramStart op.src op.dst op.fn [])) u =
        .next (u.afterFrame (s.slots.set i ((s.slot i).start (txFields s.cfg op.src op.dst op.fn 0)))
          .inProgress none) := by
    have hlen := txFields_len_toNat s.cfg op.src op.dst op.fn (Nat.zero_le maxFramePayload)
    rw [frameInstr_of_role_start (hlen.trans_le (Nat.zero_le _)) (role_of_eq_paramStart rfl), ← hslots,
      ← State.slot_congr hslots]
    exact exec_startFrame_some _ [] u i hl (hslots ▸ h.resolved)
  obtain ⟨t, hcall, ht⟩ := callReceive_of_row hs ha hfifo' (Nat.zero_le _) hrow
  exact ⟨t, hcall, {
    canPoll := ht.canPoll
    cfg := ht.cfg
    slots := ⟨_, ht.slots, holdsChunks_start op s.cfg 0 (s.slot i)⟩
    results := ht.results
    rxFifo := ht.rxFifo
    rxAnswers := ht.rxAnswers }⟩

/-- Step C of the next data frame appends its chunk. -/
theorem RoundTrip.exec_chunkReg (h : RoundTrip op s i) {w : State} {sl : Slot} {k : Nat}
    (hset : w.slots = s.slots.set i sl) (hcfg : w.cfg = s.cfg) (hl : w.lockHeld = false) (hsl : HoldsChunks op k sl)
    (hk : k < ceil8 op.length.toNat) :
    exec (frameInstr w.cfg (chunkReg w.cfg op k)) w =
      .next (w.afterFrame (s.slots.set i (sl.appended (chunkReg w.cfg op k).fields (chunkReg w.cfg op k).payload))
        .inProgress none) := by
  obtain ⟨hi, -⟩ := resolve_eq_some h.resolved
  have hslot : w.slot i = sl := by rw [State.slot_of_set hi hset, if_pos rfl]
  have hlen := chunkReg_len w.cfg h.payload k
  have hn : ceil8 op.length.toNat ≤ 32 := ceil8_le_of_fits h.fits
  have hdata : role w.cfg (BitVec.ofNat 8 k) = .data :=
    role_ofNat_of_legal (by rw [hcfg]; exact h.legal) (by omega)
  obtain ⟨hroom, -⟩ := hsl.appended h.payload h.fits (maxFramePayload_mul_lt_iff.2 hk) hlen
  rw [frameInstr_of_role_data (hlen.trans_le (Nat.min_le_left _ _)) hdata]
  refine (exec_dataFrame_append _ _ hl (h.resolve_set hset hsl.assembles)
    (by rw [hslot]; exact hsl.assembles) (by rw [hslot]; exact hroom)).trans ?_
  rw [hslot, hset, List.set_set]
  rfl

/-- A data frame appends its chunk. -/
theorem RoundTrip.receive_data (h : RoundTrip op s i) {u : State} {k : Nat} (hu : Assembled op s i k u)
    (hk : k < ceil8 op.length.toNat) :
    ∃ v, callReceive op.dst u = .next v ∧ Assembled op s i (k + 1) v := by
  obtain ⟨sl, hslots, hsl⟩ := hu.slots
  have hlt : maxFramePayload * k < op.length.toNat := maxFramePayload_mul_lt_iff.2 hk
  have hchunk := chunkAt_length h.payload (maxFramePayload * k)
  have hpos : (chunkAt op (maxFramePayload * k)).length ≠ 0 := by
    rw [hchunk, chunkLen]
    simp only [maxFramePayload] at hlt ⊢
    omega
  have hanswers : u.rxAnswers =
      .serve :: .serve :: List.replicate (2 * (ceil8 op.length.toNat - (k + 1)) + 4) .serve := by
    rw [hu.rxAnswers, ← List.replicate_succ, ← List.replicate_succ]
    congr 1
    omega
  have hfifo : u.rxFifo = encodeFrame u.cfg (BitVec.ofNat 8 k) op.src op.dst op.fn (chunkAt op (maxFramePayload * k)) ++
      ((packetFrames s.cfg op).drop (k + 2)).flatten := by
    rw [hu.rxFifo, packetFrames_drop s.cfg h.payload hk.le, List.flatten_cons, frameAfter, if_pos hlt, dataBytes,
      hu.cfg]
  have hrow (w : State) (hw : w.slots = u.slots) (hcfg : w.cfg = u.cfg) (hl : w.lockHeld = false) :
      exec (frameInstr u.cfg (chunkReg u.cfg op k)) w = .next (w.afterFrame
        (s.slots.set i (sl.appended (chunkReg u.cfg op k).fields (chunkReg u.cfg op k).payload)) .inProgress none) :=
    hcfg ▸ h.exec_chunkReg (hw.trans hslots) (hcfg.trans hu.cfg) hl hsl hk
  obtain ⟨t, hcall, ht⟩ := callReceive_of_row hu.canPoll hanswers hfifo (hchunk.trans_le (Nat.min_le_left _ _)) hrow
  rw [if_neg hpos] at ht
  obtain ⟨-, hnext⟩ := hsl.appended h.payload h.fits hlt (chunkReg_len u.cfg h.payload k)
  exact ⟨t, hcall, {
    canPoll := ht.canPoll
    cfg := ht.cfg.trans hu.cfg
    slots := ⟨_, ht.slots, hnext⟩
    results := by
      rw [ht.results, hu.results, List.append_assoc, List.replicate_succ' (n := k + 1)]
      rfl
    rxFifo := ht.rxFifo
    rxAnswers := ht.rxAnswers }⟩

/-- Step C of the END frame, on the slot that holds all chunks, passes the four tests. -/
theorem RoundTrip.exec_endReg (h : RoundTrip op s i) {w : State} {sl : Slot} (hset : w.slots = s.slots.set i sl)
    (hcfg : w.cfg = s.cfg) (hl : w.lockHeld = false) (hsl : HoldsChunks op (ceil8 op.length.toNat) sl) :
    exec (frameInstr w.cfg (endReg w.cfg op)) w =
      .next (w.afterFrame (s.slots.set i (sl.complete op.param)) .ok (some (packetOf op))) := by
  obtain ⟨hi, -⟩ := resolve_eq_some h.resolved
  have hslot : w.slot i = sl := by rw [State.slot_of_set hi hset, if_pos rfl]
  have hacc := hsl.accLen_all
  have hlen : (endReg w.cfg op).fields.len.toNat = 3 :=
    txFields_len_toNat w.cfg op.src op.dst op.fn ((endPayload_length w.cfg op).trans_le (by decide))
  have hne : w.cfg.paramEnd ≠ w.cfg.paramStart := by
    rw [hcfg]
    exact (Params.legal_eq_true.1 h.legal).1.symm
  have hn : ceil8 op.length.toNat ≤ 32 := ceil8_le_of_fits h.fits
  have hcount : (endCount (endPayload w.cfg op)).toNat = (sl.accLen.toNat + 7) / 8 := by
    show (BitVec.ofNat 8 (ceil8 op.length.toNat)).toNat = _
    rw [hacc, BitVec.toNat_ofNat, Nat.mod_eq_of_lt (by omega)]
    rfl
  have hread : bufRead (w.slot i).buf 0 (w.slot i).accLen.toNat = .ok op.payload := by
    refine bufRead_of_readByte (by rw [hslot, hacc]; exact h.fits) (by rw [hslot, hacc]; exact h.payload) fun k hk => ?_
    rw [hslot] at hk
    rw [State.readByte, hslot, hsl.bytes k hk]
  have hpacket : sl.packet op.param op.payload = packetOf op := by
    rw [Slot.packet, hsl.fn, hsl.src, hsl.dst]
    rfl
  rw [frameInstr_of_role_finish (hlen.trans_le (by decide)) (role_of_eq_paramEnd hne rfl)]
  refine (exec_endFrame_completes hl (h.resolve_set hset hsl.assembles) (by rw [hslot]; exact hsl.busy) hlen.ge
    (by rw [hslot]; exact hcount) hread rfl).trans ?_
  rw [hslot, hset, List.set_set, ← hpacket]
  rfl

/-- The END frame, after all data frames, delivers the packet and leaves nothing pending. -/
theorem RoundTrip.receive_end (h : RoundTrip op s i) {u : State} (hu : Assembled op s i (ceil8 op.length.toNat) u) :
    ∃ sl t, callReceive op.dst u = .next t ∧ sl.inProgress = false ∧
      Received u [] [.serve, .serve] (s.slots.set i sl) ⟨.receive, .ok, some (packetOf op)⟩ t := by
  obtain ⟨sl, hslots, hsl⟩ := hu.slots
  have hanswers : u.rxAnswers = .serve :: .serve :: [.serve, .serve] := by
    rw [hu.rxAnswers, Nat.sub_self]
    rfl
  have hfifo : u.rxFifo = encodeFrame u.cfg u.cfg.paramEnd op.src op.dst op.fn (endPayload u.cfg op) ++ [] := by
    have hall : ¬ maxFramePayload * ceil8 op.length.toNat < op.length.toNat := fun hlt =>
      absurd (maxFramePayload_mul_lt_iff.1 hlt) (lt_irrefl _)
    rw [hu.rxFifo, packetFrames_drop s.cfg h.payload le_rfl, packetFrames_drop_all s.cfg h.payload, frameAfter,
      if_neg hall, ← hu.cfg, lastFrame_eq u.cfg h.payload]
    rfl
  have hrow (w : State) (hw : w.slots = u.slots) (hcfg : w.cfg = u.cfg) (hl : w.lockHeld = false) :
      exec (frameInstr u.cfg (endReg u.cfg op)) w =
        .next (w.afterFrame (s.slots.set i (sl.complete op.param)) .ok (some (packetOf op))) :=
    hcfg ▸ h.exec_endReg (hw.trans hslots) (hcfg.trans hu.cfg) hl hsl
  obtain ⟨t, hcall, ht⟩ := callReceive_of_row hu.canPoll hanswers hfifo
    ((endPayload_length u.cfg op).trans_le (by decide)) hrow
  exact ⟨_, t, hcall, rfl, ht⟩

/-- START and `k` data frames, in `k + 1` polls. -/
theorem RoundTrip.pollTimes_assembled (h : RoundTrip op s i) (hs : CanPoll s)
    (hfifo : s.rxFifo = (packetFrames s.cfg op).flatten)
    (ha : s.rxAnswers = List.replicate (2 * ceil8 op.length.toNat + 5) .serve) {k : Nat}
    (hk : k ≤ ceil8 op.length.toNat) :
    ∃ u, pollTimes op.dst (k + 1) s = .next u ∧ Assembled op s i k u := by
  induction k with
  | zero =>
    obtain ⟨u, hcall, hu⟩ := h.receive_start hs hfifo ha
    exact ⟨u, pollTimes_succ_of_next (t := s) rfl hcall, hu⟩
  | succ k ih =>
    obtain ⟨u, hpoll, hu⟩ := ih (by omega)
    obtain ⟨v, hcall, hv⟩ := h.receive_data hu hk
    exact ⟨v, pollTimes_succ_of_next hpoll hcall, hv⟩

/-- The slot RESOLVE answers for a stream that no slot assembles is idle. -/
theorem RoundTrip.idle (h : RoundTrip op s i) : (s.slot i).inProgress = false := by
  obtain ⟨hi, ⟨ha, -⟩ | ⟨-, hidle, -⟩⟩ := resolve_eq_some h.resolved
  · exact absurd ((h.unassembled _ (List.getElem_mem hi)).symm.trans ha) (by decide)
  · rw [s.slot_eq_getElem i hi, hidle]

end RoundTrip

/-- Settles O57: START and the data frames fill the resolved slot, END delivers its bytes and frees it, and the next
poll finds nothing. -/
theorem fragmentThenReassembleRoundTrip : Obligations.FragmentThenReassembleRoundTrip := by
  rintro op s n hlegal hL hpayload rfl hp hb hl hnone ⟨sl, hsl, hidle⟩ hfifo ha
  obtain ⟨hcfg, -⟩ := (Bool.and_eq_true _ _).mp hlegal
  obtain ⟨i, hr⟩ := resolve_isSome_of_idle hsl hidle op.fn
  obtain ⟨hi, -⟩ := resolve_eq_some hr
  have h : RoundTrip op s i := ⟨hcfg, hL, hpayload, hnone, hr⟩
  obtain ⟨u, hpoll, hu⟩ := h.pollTimes_assembled ⟨hp, hb, hl⟩ hfifo ha le_rfl
  obtain ⟨sl', t, hcall, hfreed, ht⟩ := h.receive_end hu
  obtain ⟨v, hcall', -, hresults⟩ := callReceive_of_empty (a := op.dst) ht.canPoll.rPhase ht.canPoll.rxBound ht.rxFifo
  refine ⟨t, pollTimes_succ_of_next hpoll hcall, ?_, ht.rxFifo, fun j => ?_, v, hcall', hresults⟩
  · rw [ht.results, hu.results]
  · rw [State.slot_of_set hi ht.slots]
    split
    next hij => rw [← hij, hfreed, h.idle]
    next => rfl

end Sys2Proof.Machine
